-- ==== Sys2Proof/Word.lean ====
section
/-! DEFINITION. The words of the block's interfaces: the 32-bit register and sample word, the 7-bit
word address, the 40-bit transaction word, and what a frame tick presents (spec 20 R70, R71, R77; 30 R100). -/

namespace Sys2Proof

/-- A register word or a sample: 32 bits, bit 0 least significant (00 R7, 20 R71). -/
abbrev Word := BitVec 32

/-- A word address of the register space (20 R70). -/
abbrev Addr := BitVec 7

/-- A transaction word TW = W, ADDR, DATA from bit 39 down (30 R100). -/
abbrev TransWord := BitVec 40

/-- What a frame tick presents: the samples available for this frame (20 R77). The count `k_in` is
the number of samples; that it fits 16 bits is a check of WellFormed. DESIGN CHOICE (log 11): safe. -/
structure FrameTick where
  samples : List Word
  deriving DecidableEq, Repr

/-- `k_in` of the tick (20 R77). -/
abbrev FrameTick.kIn (t : FrameTick) : Nat := t.samples.length

end Sys2Proof
end

