-- ==== Sys2Proof/Machine/AddressMap.lean ====
section
/-! DEFINITION. The writable addresses of the register map (spec 20 R76) and the fields of a transaction
word (30 R100). -/

namespace Sys2Proof.Machine

/-- `CMD`, write-only (20 R76). -/
def addrCmd : Addr := 0x08#7
/-- `STATUS`, read and write-one-to-clear (20 R76). -/
def addrStatus : Addr := 0x09#7
/-- `CENTER_FREQ`, x[0] (20 R76). -/
def addrCenter : Addr := 0x10#7
/-- `BANDWIDTH`, x[1] (20 R76). -/
def addrBandwidth : Addr := 0x11#7
/-- `NOTCH_FREQ`, x[2] (20 R76). -/
def addrNotch : Addr := 0x12#7
/-- `VOLUME`, x[3] (20 R76). -/
def addrVolume : Addr := 0x13#7
/-- `ANTENNA_MODE`, x[4] (20 R76). -/
def addrAntenna : Addr := 0x14#7
/-- `DEMOD_MODE`, x[5] (20 R76). -/
def addrDemod : Addr := 0x15#7

/-- The addresses a write acts on: 0x08, 0x09 and 0x10 to 0x15; every other address is read-only or
unmapped (44 R253). -/
def isWritable (a : Addr) : Bool :=
  a == addrCmd || a == addrStatus || (0x10 ≤ a.toNat && a.toNat ≤ 0x15)

/-- Bit 39 of a transaction word: 1 = write (30 R100). -/
def twIsWrite (tw : TransWord) : Bool := tw.getLsbD 39

/-- Bits 38:32 of a transaction word (30 R100). -/
def twAddr (tw : TransWord) : Addr := tw.extractLsb' 32 7

/-- Bits 31:0 of a transaction word (30 R100). -/
def twData (tw : TransWord) : Word := tw.extractLsb' 0 32

/-- The transaction word of the triple (write-enable, address, data) (30 R100). -/
def twOf (isWrite : Bool) (a : Addr) (d : Word) : TransWord := BitVec.ofBool isWrite ++ a ++ d

end Sys2Proof.Machine
end

