-- ==== Sys2Proof/Syntax.lean ====
section
/-! DEFINITION. The operations of the block: one constructor per row of the opcode table (spec 30 R104,
R105). HOST operations carry the operand fields their row leaves free; FRAME operations carry the tick. -/

namespace Sys2Proof

/-- The 14 HOST rows and the 4 FRAME rows of the opcode table. -/
inductive Instr where
  /-- `WR.CENTER`, set_center_frequency (44 R241). -/
  | wrCenter (data : Word)
  /-- `WR.BANDWIDTH`, set_bandwidth (44 R242). -/
  | wrBandwidth (data : Word)
  /-- `WR.NOTCH`, set_notch_frequency (44 R243). -/
  | wrNotch (data : Word)
  /-- `WR.VOLUME`, set_volume (44 R244). -/
  | wrVolume (data : Word)
  /-- `WR.ANTENNA`, set_antenna_mode (44 R245). -/
  | wrAntenna (data : Word)
  /-- `WR.DEMOD`, set_demod_mode (44 R246). -/
  | wrDemod (data : Word)
  /-- `CMD.NOP` (44 R248). -/
  | cmdNop
  /-- `CMD.START`, start() (44 R249). -/
  | cmdStart
  /-- `CMD.STOP`, stop() (44 R250). -/
  | cmdStop
  /-- `CMD.RESET`, soft reset (44 R251). -/
  | cmdReset
  /-- `CMD.RSVD`, a command opcode above 3 (44 R248). -/
  | cmdRsvd (data : Word)
  /-- `W1C.STATUS`, clear sticky bits (44 R252). -/
  | w1cStatus (mask : Word)
  /-- `WR.REFUSED`, a write to a read-only or unmapped address (44 R253). -/
  | wrRefused (addr : Addr) (data : Word)
  /-- `RD`, a register read; the data bits of a read are ignored (44 R254, 30 R100). -/
  | rd (addr : Addr)
  /-- `FRAME.IDLE`, a frame tick while stopped (43 R211). -/
  | frameIdle (tick : FrameTick)
  /-- `FRAME.AM`, AM envelope demodulation of one frame (42 R190). -/
  | frameAm (tick : FrameTick)
  /-- `FRAME.FM`, FM slope demodulation of one frame (42 R191). -/
  | frameFm (tick : FrameTick)
  /-- `FRAME.PT`, band-limited pass-through of one frame (42 R192). -/
  | framePt (tick : FrameTick)
  deriving DecidableEq, Repr

end Sys2Proof
end

