-- ==== Sys2Proof/WellFormed.lean ====
section
/-! DEFINITION. Which terms of Instr are operations of the opcode table: the checks that the operand
fields of three kinds of row carry (spec 30 R101, R104; 20 R77). -/

namespace Sys2Proof

/-- A reserved command has an opcode above 3; a refused write has an address that is not writable; a
frame tick has a 16-bit count. Every other operand may have any value. -/
def Instr.wellFormed : Instr → Bool
  | .cmdRsvd d => 3 < d.toNat
  | .wrRefused a _ => !Machine.isWritable a
  | .frameIdle t | .frameAm t | .frameFm t | .framePt t => t.kIn < 2 ^ 16
  | .wrCenter _ | .wrBandwidth _ | .wrNotch _ | .wrVolume _ | .wrAntenna _ | .wrDemod _ => true
  | .cmdNop | .cmdStart | .cmdStop | .cmdReset => true
  | .w1cStatus _ | .rd _ => true

end Sys2Proof
end

