-- ==== Sys2Proof/Decode.lean ====
section
/-! DEFINITION. The decoder of transaction words and frame ticks, the encoder, the opcode table's rows
with their match-and-mask rule, and the host's entry point (spec 30 R100 to R106). -/

namespace Sys2Proof

open Machine

/-- An operation as it reaches the block: a bus transaction, or a frame tick together with the
selector SEL = RUN, mode[1:0] that the engine reads from its state (30 R100, R105). -/
inductive Request where
  | host (tw : TransWord)
  | frame (sel : BitVec 3) (tick : FrameTick)
  deriving DecidableEq, Repr

/-- Why a request decodes to nothing. -/
inductive DecodeError where
  /-- SEL = 0b111: no row of the table; the mode code 3 cannot occur (30 R105, 43 R219). -/
  | reservedSelector
  deriving DecidableEq, Repr

/-- A write to CMD, by its data (44 R248). -/
def decodeCommand (d : Word) : Instr :=
  if d = 0#32 then .cmdNop
  else if d = 1#32 then .cmdStart
  else if d = 2#32 then .cmdStop
  else if d = 3#32 then .cmdReset
  else .cmdRsvd d

/-- A write, by its address (30 R104). -/
def decodeWrite (a : Addr) (d : Word) : Instr :=
  if a = addrCenter then .wrCenter d
  else if a = addrBandwidth then .wrBandwidth d
  else if a = addrNotch then .wrNotch d
  else if a = addrVolume then .wrVolume d
  else if a = addrAntenna then .wrAntenna d
  else if a = addrDemod then .wrDemod d
  else if a = addrCmd then decodeCommand d
  else if a = addrStatus then .w1cStatus d
  else .wrRefused a d

/-- A transaction word; every one of the 2^40 decodes (30 R100, R104). -/
def decodeHost (tw : TransWord) : Instr :=
  if twIsWrite tw then decodeWrite (twAddr tw) (twData tw) else .rd (twAddr tw)

/-- A frame tick under the selector (30 R105): `0b0xx` idle, `0b100` AM, `0b101` FM, `0b110` PT. -/
def decodeFrame (sel : BitVec 3) (t : FrameTick) : Except DecodeError Instr :=
  if sel = 4#3 then .ok (.frameAm t)
  else if sel = 5#3 then .ok (.frameFm t)
  else if sel = 6#3 then .ok (.framePt t)
  else if sel = 7#3 then .error .reservedSelector
  else .ok (.frameIdle t)

/-- The decoder: total, rejecting the one reserved selector by name. -/
def decode : Request → Except DecodeError Instr
  | .host tw => .ok (decodeHost tw)
  | .frame sel t => decodeFrame sel t

/-- The encoder, from the tables of 30 R104 and R105. The ignored data of a read is written as 0, as
R100 asks; the two ignored mode bits of FRAME.IDLE are written as 0. DESIGN CHOICE (log 15): safe. -/
def encode : Instr → Request
  | .wrCenter d => .host (twOf true addrCenter d)
  | .wrBandwidth d => .host (twOf true addrBandwidth d)
  | .wrNotch d => .host (twOf true addrNotch d)
  | .wrVolume d => .host (twOf true addrVolume d)
  | .wrAntenna d => .host (twOf true addrAntenna d)
  | .wrDemod d => .host (twOf true addrDemod d)
  | .cmdNop => .host (twOf true addrCmd 0#32)
  | .cmdStart => .host (twOf true addrCmd 1#32)
  | .cmdStop => .host (twOf true addrCmd 2#32)
  | .cmdReset => .host (twOf true addrCmd 3#32)
  | .cmdRsvd d => .host (twOf true addrCmd d)
  | .w1cStatus d => .host (twOf true addrStatus d)
  | .wrRefused a d => .host (twOf true a d)
  | .rd a => .host (twOf false a 0#32)
  | .frameIdle t => .frame 0#3 t
  | .frameAm t => .frame 4#3 t
  | .frameFm t => .frame 5#3 t
  | .framePt t => .frame 6#3 t

/-! ### The opcode table itself (30 R104, R105) -/

/-- A row: its mnemonic, and the match and mask of its word. -/
structure OpRow (w : Nat) where
  mnemonic : String
  pattern : BitVec w
  mask : BitVec w
  deriving DecidableEq, Repr

/-- The word satisfies the row: `word & mask = match`. -/
def rowMatches {w : Nat} (r : OpRow w) (word : BitVec w) : Bool := (word &&& r.mask) == r.pattern

/-- How many 1 bits the row's mask has. -/
def maskWeight {w : Nat} (r : OpRow w) : Nat := (List.range w).countP fun i => r.mask.getLsbD i

/-- "When several rows match, the row whose mask has the most 1 bits applies" (30 R104); of two equal
ones the earlier (no two rows of the table that match one word have equal weights). -/
def bestRow {w : Nat} : List (OpRow w) → BitVec w → Option (OpRow w)
  | [], _ => none
  | r :: rs, word =>
    match bestRow rs word with
    | none => if rowMatches r word then some r else none
    | some r' => if rowMatches r word && maskWeight r' ≤ maskWeight r then some r else some r'

/-- The 14 HOST rows. -/
def hostRows : List (OpRow 40) :=
  [ ⟨"WR.CENTER", 0x9000000000#40, 0xFF00000000#40⟩,
    ⟨"WR.BANDWIDTH", 0x9100000000#40, 0xFF00000000#40⟩,
    ⟨"WR.NOTCH", 0x9200000000#40, 0xFF00000000#40⟩,
    ⟨"WR.VOLUME", 0x9300000000#40, 0xFF00000000#40⟩,
    ⟨"WR.ANTENNA", 0x9400000000#40, 0xFF00000000#40⟩,
    ⟨"WR.DEMOD", 0x9500000000#40, 0xFF00000000#40⟩,
    ⟨"CMD.NOP", 0x8800000000#40, 0xFFFFFFFFFF#40⟩,
    ⟨"CMD.START", 0x8800000001#40, 0xFFFFFFFFFF#40⟩,
    ⟨"CMD.STOP", 0x8800000002#40, 0xFFFFFFFFFF#40⟩,
    ⟨"CMD.RESET", 0x8800000003#40, 0xFFFFFFFFFF#40⟩,
    ⟨"CMD.RSVD", 0x8800000000#40, 0xFF00000000#40⟩,
    ⟨"W1C.STATUS", 0x8900000000#40, 0xFF00000000#40⟩,
    ⟨"WR.REFUSED", 0x8000000000#40, 0x8000000000#40⟩,
    ⟨"RD", 0x0000000000#40, 0x8000000000#40⟩ ]

/-- The 4 FRAME rows, on the selector. -/
def frameRows : List (OpRow 3) :=
  [ ⟨"FRAME.IDLE", 0x0#3, 0x4#3⟩, ⟨"FRAME.AM", 0x4#3, 0x7#3⟩, ⟨"FRAME.FM", 0x5#3, 0x7#3⟩,
    ⟨"FRAME.PT", 0x6#3, 0x7#3⟩ ]

/-- The table's mnemonic of an instruction, letter for letter. -/
def mnemonicOf : Instr → String
  | .wrCenter _ => "WR.CENTER"
  | .wrBandwidth _ => "WR.BANDWIDTH"
  | .wrNotch _ => "WR.NOTCH"
  | .wrVolume _ => "WR.VOLUME"
  | .wrAntenna _ => "WR.ANTENNA"
  | .wrDemod _ => "WR.DEMOD"
  | .cmdNop => "CMD.NOP"
  | .cmdStart => "CMD.START"
  | .cmdStop => "CMD.STOP"
  | .cmdReset => "CMD.RESET"
  | .cmdRsvd _ => "CMD.RSVD"
  | .w1cStatus _ => "W1C.STATUS"
  | .wrRefused _ _ => "WR.REFUSED"
  | .rd _ => "RD"
  | .frameIdle _ => "FRAME.IDLE"
  | .frameAm _ => "FRAME.AM"
  | .frameFm _ => "FRAME.FM"
  | .framePt _ => "FRAME.PT"

/-- The mnemonic of the row the table gives a request: the bus word against the HOST rows, the
selector against the FRAME rows. -/
def tableMnemonic : Request → Option String
  | .host tw => (bestRow hostRows tw).map OpRow.mnemonic
  | .frame sel _ => (bestRow frameRows sel).map OpRow.mnemonic

/-! ### The host's entry point -/

/-- The request of a table word: a HOST row has 40 bits; a FRAME row has the 3 bits of SEL (one byte,
whose bits 7:3 are no part of it) and an empty tick (k_in = 0). DESIGN CHOICE (log 16): safe. -/
def tableRequest (nbits w : Nat) : Request :=
  if nbits ≤ 8 then .frame (BitVec.ofNat 3 w) ⟨[]⟩ else .host (BitVec.ofNat 40 w)

/-- What the decoder reads from an instruction whose bits, numbered as the opcode table numbers them,
are `w`. -/
def decodeTableWord (nbits w : Nat) : Option Instr :=
  match decode (tableRequest nbits w) with
  | .ok i => some i
  | .error _ => none

end Sys2Proof
end

