-- ==== Sys2Proof/Machine/Binary32.lean ====
section
/-! DEFINITION. IEEE 754 binary32 patterns as the block's interfaces use them: finiteness, the value of
a finite pattern, and rounding of an exact number to a pattern (spec 00 R8, R12; 44 R240). -/

namespace Sys2Proof.Machine

/-- The exponent field, bits 30:23 (00 R8). -/
def expField (w : Word) : BitVec 8 := w.extractLsb' 23 8

/-- The fraction field, bits 22:0 (00 R8). -/
def fracField (w : Word) : BitVec 23 := w.extractLsb' 0 23

/-- `finite(w)` is `w[30:23] != 0xFF` (00 R8). -/
def finite (w : Word) : Bool := expField w != 0xFF#8

/-- `iszero(w)` is `w[30:0] = 0` (44 R240). -/
def isZero (w : Word) : Bool := w.extractLsb' 0 31 == 0#31

/-- `pos(w)`: finite and value > 0, subnormals included (44 R240). -/
def pos (w : Word) : Bool := finite w && !w.msb && !isZero w

/-- `nonneg(w)`: finite and value ≥ 0; `0x80000000` counts as 0 (44 R240). -/
def nonneg (w : Word) : Bool := finite w && (!w.msb || isZero w)

/-- `unit(w)`: value in [0, 1], by the unsigned order of the patterns (44 R240). -/
def unitRange (w : Word) : Bool := nonneg w && (isZero w || w.toNat ≤ 0x3F800000)

/-- The magnitude of a finite pattern in units of 2^-149, the smallest subnormal: the fraction when the
exponent field `e` is 0, and `(2^23 + m)·2^(e−1)` otherwise (00 R8). -/
def magUnits (w : Word) : Nat :=
  if expField w = 0#8 then (fracField w).toNat
  else (2 ^ 23 + (fracField w).toNat) * 2 ^ ((expField w).toNat - 1)

/-- `val(w)`, the number a finite pattern denotes (00 R8). -/
def val (w : Word) : ℚ := (if w.msb then -1 else 1) * (magUnits w : ℚ) / 2 ^ 149

section Rounding

variable {K : Type} [Field K] [LinearOrder K] [FloorSemiring K]

/-- The natural number nearest a non-negative `q`, ties to even. -/
def roundEven (q : K) : Nat :=
  let n := ⌊q⌋₊
  let r := q - n
  if r < 1 / 2 then n else if 1 / 2 < r then n + 1 else n + n % 2

/-- The pattern, without its sign, of a magnitude `q` given in units of the format's smallest
subnormal, rounded to nearest, ties to even: `k` low bits are dropped and `k` becomes the exponent;
from `infBits` on, the pattern of infinity (00 R12). -/
def roundMag (fracBits infBits : Nat) (q : K) : Nat :=
  let k := Nat.log2 ⌊q⌋₊ - fracBits
  let bits := k * 2 ^ fracBits + roundEven (q / 2 ^ k)
  if infBits ≤ bits then infBits else bits

/-- `to_b32` of an exact number, as `NUM_REAL` has it: nearest binary32 value, ties to even,
`0x7F800000` or `0xFF800000` beyond the largest finite value, `0x00000000` for a result of zero
whatever its sign (00 R12; 93 U5: "under NUM_REAL always 0x00000000"). DEDUCED (log 18): safe. -/
def roundB32 (x : K) : Word :=
  let m := roundMag 23 0x7F800000 ((if x < 0 then -x else x) * 2 ^ 149)
  if x < 0 ∧ m ≠ 0 then BitVec.ofNat 32 (0x80000000 + m) else BitVec.ofNat 32 m

end Rounding

end Sys2Proof.Machine
end

