-- ==== Sys2Proof/Config.lean ====
section
/-! DEFINITION. What an implementation fixes (spec 00 R5): the parameters, the numerics record NUM with
its properties (00 R9 to R11), the synthesis record SYN with its properties (40 R137, R138), and the one
configuration of this machine, an opaque constant of which nothing is known but those properties. -/

namespace Sys2Proof

open Machine

/-- A second-order section; `a0` is 1 and not stored (10 R50). -/
structure Biquad (F : Type) where
  b0 : F
  b1 : F
  b2 : F
  a1 : F
  a2 : F
  deriving DecidableEq, Repr

/-- The five coefficients in the order of the coefficient window: b0, b1, b2, a1, a2 (20 R76). -/
abbrev Biquad.coeffs {F : Type} (s : Biquad F) : List F := [s.b0, s.b1, s.b2, s.a1, s.a2]

/-- A coefficient bank of `k` sections (10 R50). -/
abbrev Bank (F : Type) (k : Nat) := Vector (Biquad F) k

/-- The numerics record NUM over internal values `F` (00 R9). `ofB32` is meant for finite patterns; the
model applies it to no other pattern in a reachable state (log 7). -/
structure Num (F : Type) where
  ofB32 : Word → F
  toB32 : F → Word
  ofNat : Nat → F
  add : F → F → F
  sub : F → F → F
  mul : F → F → F
  div : F → F → F
  abs : F → F
  max : F → F → F
  min : F → F → F
  lt : F → F → Bool
  le : F → F → Bool
  cos : F → F
  twoPi : F

/-- "Finite" for a value of `F` (00 R11). -/
def Num.isFinite {F : Type} (M : Num F) (v : F) : Bool := finite (M.toB32 v)

/-- NP1 to NP7 (00 R11) for a set `Z` of values that are the zeros of `F`, which holds `ofNat 0` and the
images of the two zero patterns. R11's own zeros, every value with a zero pattern, are one such set
(`Num.LawfulAsWritten`); for NUM_REAL the set holds the real number 0 alone. -/
structure Num.Lawful {F : Type} (M : Num F) (Z : F → Prop) : Prop where
  zero_pattern : ∀ z, Z z → isZero (M.toB32 z) = true
  zero_ofB32 : ∀ w, isZero w = true → Z (M.ofB32 w)
  np1_zero : Z (M.ofNat 0)
  np1_left : ∀ z v, Z z → M.isFinite v = true → Z (M.mul z v)
  np1_right : ∀ z v, Z z → M.isFinite v = true → Z (M.mul v z)
  np2_add : ∀ y z, Z y → Z z → Z (M.add y z)
  np2_sub : ∀ y z, Z y → Z z → Z (M.sub y z)
  np2_abs : ∀ z, Z z → Z (M.abs z)
  np3_left : ∀ v, M.mul (M.ofNat 1) v = v
  np3_right : ∀ v, M.mul v (M.ofNat 1) = v
  np4_idem : ∀ v, M.abs (M.abs v) = M.abs v
  np4_nonneg : ∀ v, M.isFinite v = true → M.le (M.ofNat 0) (M.abs v) = true
  np5_cos : ∀ z, Z z → M.cos z = M.ofNat 1
  np5_div : ∀ z d, Z z → M.isFinite d = true → isZero (M.toB32 d) = false → Z (M.div z d)
  np6_val : ∀ w, finite w = true → finite (M.toB32 (M.ofB32 w)) = true ∧ val (M.toB32 (M.ofB32 w)) = val w
  np6_exact : ∀ w, finite w = true → val w ≠ 0 → M.toB32 (M.ofB32 w) = w
  np7_lt : ∀ u w, finite u = true → finite w = true →
    (M.lt (M.ofB32 u) (M.ofB32 w) = true ↔ val u < val w)
  np7_le : ∀ u w, finite u = true → finite w = true →
    (M.le (M.ofB32 u) (M.ofB32 w) = true ↔ val u ≤ val w)
  np7_max : ∀ u w, finite u = true → finite w = true →
    (val u < val w → M.max (M.ofB32 u) (M.ofB32 w) = M.ofB32 w) ∧
    (val w < val u → M.max (M.ofB32 u) (M.ofB32 w) = M.ofB32 u) ∧
    (M.max (M.ofB32 u) (M.ofB32 w) = M.ofB32 u ∨ M.max (M.ofB32 u) (M.ofB32 w) = M.ofB32 w)
  np7_min : ∀ u w, finite u = true → finite w = true →
    (val u < val w → M.min (M.ofB32 u) (M.ofB32 w) = M.ofB32 u) ∧
    (val w < val u → M.min (M.ofB32 u) (M.ofB32 w) = M.ofB32 w) ∧
    (M.min (M.ofB32 u) (M.ofB32 w) = M.ofB32 u ∨ M.min (M.ofB32 u) (M.ofB32 w) = M.ofB32 w)

/-- R11 as it is written: "a zero" is every value whose pattern is a zero (00 R11). -/
def Num.LawfulAsWritten {F : Type} (M : Num F) : Prop := M.Lawful fun v => isZero (M.toB32 v) = true

/-- The synthesis record SYN (40 R137): total and pure by being functions (SP1, SP2). -/
structure Syn (F : Type) where
  bpf : F → F → Option (Bank F 4)
  notch : F → Option (Bank F 1)
  lpf : Option (Bank F 2)

/-- `BUS_BYTE_ORDER` (20 R72): a parameter of an integrator's mapping that no rule reads (log 12). -/
inductive ByteOrder where
  | little
  | big
  deriving DecidableEq, Repr

/-- The configuration CFG (00 R5). -/
structure Cfg (F : Type) where
  /-- `N`, the frame size. -/
  n : Nat
  /-- `FS_BITS`, the sample rate. -/
  fsBits : Word
  /-- `FLP_BITS`, the audio low-pass cutoff. -/
  flpBits : Word
  /-- `QN_BITS`, the notch quality factor; default 30.0. -/
  qnBits : Word := 0x41F00000#32
  /-- `GFM_BITS`, the FM gain. -/
  gfmBits : Word
  num : Num F
  syn : Syn F
  /-- `BUS_BYTE_ORDER`, OPEN in 00 R5 and given no value by 00 R6. The default `little` is the model's
  choice, for the configurations written out in the package; `Config.cfg` leaves it open. No operation
  reads it. DESIGN CHOICE (log 12): safe. -/
  busByteOrder : ByteOrder := .little

section Derived

variable {F : Type} (C : Cfg F)

/-- `ZERO` (00 R10). -/
def Cfg.zero : F := C.num.ofNat 0
/-- `ONE` (00 R10). -/
def Cfg.one : F := C.num.ofNat 1
/-- `HALF` (00 R10). -/
def Cfg.half : F := C.num.ofB32 0x3F000000#32
/-- `FSf` (00 R10). -/
def Cfg.fsf : F := C.num.ofB32 C.fsBits
/-- `FLPf` (00 R10). -/
def Cfg.flpf : F := C.num.ofB32 C.flpBits
/-- `QNf` (00 R10). -/
def Cfg.qnf : F := C.num.ofB32 C.qnBits
/-- `GFMf` (00 R10). -/
def Cfg.gfmf : F := C.num.ofB32 C.gfmBits
/-- `NYQf`, the Nyquist frequency (00 R10). -/
def Cfg.nyqf : F := C.num.mul C.half C.fsf

end Derived

/-- SP7 (40 R138): on its domain each function gives a bank. The domain is written with NUM's own
comparisons, since the arguments are values of `F`. DEDUCED (log 21). -/
structure Syn.OnDomain {F : Type} (C : Cfg F) : Prop where
  bpf : ∀ lo hi, C.num.le C.one lo = true → C.num.lt lo hi = true →
    C.num.le hi (C.num.sub C.nyqf C.one) = true → (C.syn.bpf lo hi).isSome = true
  notch : ∀ f, C.num.lt C.zero f = true → C.num.lt f C.nyqf = true → (C.syn.notch f).isSome = true
  lpf : C.syn.lpf.isSome = true

/-- The constraints of 00 R5, NP1 to NP7 for SOME set of zeros (NP8 is being a function) and SP7 (SP1, SP2
are being total functions): what statements about every configuration assume. It asks less than R11, so
that they hold of NUM_REAL too, which R12 names as the reference and which lacks R11's properties as they
are written (Laws/Num.lean). DEDUCED (log 5): safe. -/
structure Cfg.Admissible {F : Type} (C : Cfg F) : Prop where
  n_range : 1 ≤ C.n ∧ C.n ≤ 65535
  fs_range : finite C.fsBits = true ∧ 4 < val C.fsBits
  flp_range : finite C.flpBits = true ∧ 0 < val C.flpBits ∧ val C.flpBits < val C.fsBits / 2
  qn_range : finite C.qnBits = true ∧ 0 < val C.qnBits
  gfm_range : finite C.gfmBits = true ∧ 0 < val C.gfmBits
  num_lawful : ∃ Z, C.num.Lawful Z
  syn_domain : Syn.OnDomain C

/-- What the spec requires of a configuration: the constraints of 00 R5, NP1 to NP8 as R11 writes them,
and SP1, SP2, SP7 (40 R138). -/
structure Cfg.Legal {F : Type} (C : Cfg F) : Prop where
  admissible : C.Admissible
  num_asWritten : C.num.LawfulAsWritten

/-! ### The configuration of this machine -/

/-- An internal value, NUM.F, as plain data: a name. What a name means is what the opaque operations of
`Config.cfg` make of it. Only values built from patterns, naturals, `two_pi` and the finitely many
operations ever occur, so every instance of NUM that R11 allows is met by some assignment of names.
DESIGN CHOICE (log 4): safe. -/
structure Value where
  code : Nat
  deriving DecidableEq, Repr

/-- The pattern a value's name spells, in the sample configuration below only. -/
def Config.samplePattern (v : Value) : Word := BitVec.ofNat 32 v.code

/-- A NUM instance that shows the requirements can be met; the machine does not use it. -/
def Config.sampleNum : Num Value where
  ofB32 w := ⟨w.toNat⟩
  toB32 := Config.samplePattern
  ofNat k := if k = 1 then ⟨0x3F800000⟩ else ⟨0⟩
  add _ _ := ⟨0⟩
  sub _ _ := ⟨0⟩
  mul a b := if a = ⟨0x3F800000⟩ then b else if b = ⟨0x3F800000⟩ then a else ⟨0⟩
  div _ _ := ⟨0⟩
  abs a := ⟨(Config.samplePattern a &&& 0x7FFFFFFF#32).toNat⟩
  max a b := if val (Config.samplePattern a) < val (Config.samplePattern b) then b else a
  min a b := if val (Config.samplePattern b) < val (Config.samplePattern a) then b else a
  lt a b := decide (val (Config.samplePattern a) < val (Config.samplePattern b))
  le a b := decide (val (Config.samplePattern a) ≤ val (Config.samplePattern b))
  cos _ := ⟨0x3F800000⟩
  twoPi := ⟨0⟩

/-- The section of the sample configuration's banks. -/
def Config.sampleSection : Biquad Value := ⟨⟨0⟩, ⟨0⟩, ⟨0⟩, ⟨0⟩, ⟨0⟩⟩

/-- A configuration that shows a legal one exists; the machine does not use it. -/
def Config.sample : Cfg Value where
  n := 1
  fsBits := 0x45FA0000#32
  flpBits := 0x447A0000#32
  gfmBits := 0x40800000#32
  num := Config.sampleNum
  syn :=
    { bpf := fun _ _ => some (Vector.replicate 4 Config.sampleSection)
      notch := fun _ => some (Vector.replicate 1 Config.sampleSection)
      lpf := some (Vector.replicate 2 Config.sampleSection) }

/-- Its zeros: the names that spell a zero pattern. -/
def Config.sampleZero (v : Value) : Prop := isZero (Config.samplePattern v) = true

theorem Config.samplePattern_ofB32 (w : Word) : Config.samplePattern ⟨w.toNat⟩ = w := by
  simp [Config.samplePattern]

theorem Config.sampleZero_zero : Config.sampleZero ⟨0⟩ := by
  unfold Config.sampleZero Config.samplePattern; decide

theorem Config.sampleZero_mul_left (z v : Value) (hz : Config.sampleZero z) :
    Config.sampleZero (Config.sampleNum.mul z v) := by
  have h1 : z ≠ ⟨0x3F800000⟩ := by
    rintro rfl; revert hz; unfold Config.sampleZero Config.samplePattern; decide
  show Config.sampleZero (if z = ⟨0x3F800000⟩ then v else if v = ⟨0x3F800000⟩ then z else ⟨0⟩)
  rw [if_neg h1]
  split
  · exact hz
  · exact Config.sampleZero_zero

theorem Config.sampleZero_mul_right (z v : Value) (hz : Config.sampleZero z) :
    Config.sampleZero (Config.sampleNum.mul v z) := by
  have h1 : z ≠ ⟨0x3F800000⟩ := by
    rintro rfl; revert hz; unfold Config.sampleZero Config.samplePattern; decide
  show Config.sampleZero (if v = ⟨0x3F800000⟩ then z else if z = ⟨0x3F800000⟩ then v else ⟨0⟩)
  rw [if_neg h1]
  split
  · exact hz
  · exact Config.sampleZero_zero

theorem Config.samplePattern_abs (v : Value) :
    Config.samplePattern (Config.sampleNum.abs v) = Config.samplePattern v &&& 0x7FFFFFFF#32 :=
  Config.samplePattern_ofB32 _

theorem Config.val_abs_nonneg (w : Word) : 0 ≤ val (w &&& 0x7FFFFFFF#32) := by
  have h : (w &&& 0x7FFFFFFF#32).msb = false := by
    rw [BitVec.msb_and]; simp [show (0x7FFFFFFF#32).msb = false by decide]
  simp only [val, h, Bool.false_eq_true, if_false]
  positivity

theorem Config.sampleNum_lawful : Config.sampleNum.Lawful Config.sampleZero where
  zero_pattern _ h := h
  zero_ofB32 w h := by
    show isZero (Config.samplePattern ⟨w.toNat⟩) = true
    rw [Config.samplePattern_ofB32]; exact h
  np1_zero := Config.sampleZero_zero
  np1_left z v hz _ := Config.sampleZero_mul_left z v hz
  np1_right z v hz _ := Config.sampleZero_mul_right z v hz
  np2_add _ _ _ _ := Config.sampleZero_zero
  np2_sub _ _ _ _ := Config.sampleZero_zero
  np2_abs z hz := by
    have hz' : isZero (Config.samplePattern z) = true := hz
    show isZero (Config.samplePattern (Config.sampleNum.abs z)) = true
    rw [Config.samplePattern_abs]
    simp only [isZero, beq_iff_eq] at hz' ⊢
    rw [BitVec.extractLsb'_and, hz', BitVec.zero_and]
  np3_left v := by
    show (if (⟨0x3F800000⟩ : Value) = ⟨0x3F800000⟩ then v
      else if v = ⟨0x3F800000⟩ then ⟨0x3F800000⟩ else ⟨0⟩) = v
    exact if_pos rfl
  np3_right v := by
    show (if v = ⟨0x3F800000⟩ then _ else _) = v
    split
    · next h => exact h.symm
    · exact if_pos rfl
  np4_idem v := by
    show (⟨(Config.samplePattern (Config.sampleNum.abs v) &&& 0x7FFFFFFF#32).toNat⟩ : Value) = _
    rw [Config.samplePattern_abs, BitVec.and_assoc, BitVec.and_self]; rfl
  np4_nonneg v _ := by
    show decide (val (Config.samplePattern ⟨0⟩) ≤ val (Config.samplePattern (Config.sampleNum.abs v))) = true
    rw [Config.samplePattern_abs, decide_eq_true_eq]
    have h0 : val (Config.samplePattern ⟨0⟩) = 0 := by
      simp [Config.samplePattern, val, magUnits, expField, fracField]
    rw [h0]; exact Config.val_abs_nonneg _
  np5_cos _ _ := rfl
  np5_div _ _ _ _ _ := Config.sampleZero_zero
  np6_val w h := by
    show finite (Config.samplePattern ⟨w.toNat⟩) = true ∧ val (Config.samplePattern ⟨w.toNat⟩) = val w
    rw [Config.samplePattern_ofB32]; exact ⟨h, rfl⟩
  np6_exact w _ _ := Config.samplePattern_ofB32 w
  np7_lt u w _ _ := by
    show decide (val (Config.samplePattern ⟨u.toNat⟩) < val (Config.samplePattern ⟨w.toNat⟩)) = true ↔ _
    rw [Config.samplePattern_ofB32, Config.samplePattern_ofB32, decide_eq_true_eq]
  np7_le u w _ _ := by
    show decide (val (Config.samplePattern ⟨u.toNat⟩) ≤ val (Config.samplePattern ⟨w.toNat⟩)) = true ↔ _
    rw [Config.samplePattern_ofB32, Config.samplePattern_ofB32, decide_eq_true_eq]
  np7_max u w _ _ := by
    have e : Config.sampleNum.max (Config.sampleNum.ofB32 u) (Config.sampleNum.ofB32 w) =
        if val u < val w then Config.sampleNum.ofB32 w else Config.sampleNum.ofB32 u := by
      show (if val (Config.samplePattern ⟨u.toNat⟩) < val (Config.samplePattern ⟨w.toNat⟩) then _ else _) = _
      rw [Config.samplePattern_ofB32, Config.samplePattern_ofB32]
    rw [e]
    refine ⟨fun h => if_pos h, fun h => if_neg (not_lt.mpr h.le), ?_⟩
    split <;> simp
  np7_min u w _ _ := by
    have e : Config.sampleNum.min (Config.sampleNum.ofB32 u) (Config.sampleNum.ofB32 w) =
        if val w < val u then Config.sampleNum.ofB32 w else Config.sampleNum.ofB32 u := by
      show (if val (Config.samplePattern ⟨w.toNat⟩) < val (Config.samplePattern ⟨u.toNat⟩) then _ else _) = _
      rw [Config.samplePattern_ofB32, Config.samplePattern_ofB32]
    rw [e]
    refine ⟨fun h => if_neg (not_lt.mpr h.le), fun h => if_pos h, ?_⟩
    split <;> simp

theorem Config.sample_admissible : Config.sample.Admissible where
  n_range := by decide
  fs_range := by decide +kernel
  flp_range := by decide +kernel
  qn_range := by decide +kernel
  gfm_range := by decide +kernel
  num_lawful := ⟨_, Config.sampleNum_lawful⟩
  syn_domain := ⟨fun _ _ _ _ _ => rfl, fun _ _ _ => rfl, rfl⟩

theorem Config.sample_legal : Config.sample.Legal := ⟨Config.sample_admissible, Config.sampleNum_lawful⟩

/-- The configuration of this machine: some legal one, with no body, so that no proof can learn more of
it than `Cfg.Legal` says (00 R5, R11: "a proof may assume them by name and nothing else of NUM"). The
bracketed argument only tells Lean that a legal configuration exists. -/
opaque Config.chosen [Inhabited { C : Cfg Value // C.Legal }] : { C : Cfg Value // C.Legal }

/-- CFG (00 R5). -/
def Config.cfg : Cfg Value := (@Config.chosen ⟨⟨Config.sample, Config.sample_legal⟩⟩).1

theorem Config.cfg_legal : Config.cfg.Legal := (@Config.chosen ⟨⟨Config.sample, Config.sample_legal⟩⟩).2

end Sys2Proof
end

