-- ==== Sys2Proof/Machine/State.lean ====
section
/-! DEFINITION. The state of the block and of its ports, its stops, and the state after reset (spec 10;
60 R292 to R294; 70 R320). -/

namespace Sys2Proof.Machine

/-- The six tuning registers x[0] to x[5] (10 R30); also the snapshot, which copies all six (43 R212). -/
structure Tuning where
  /-- x[0] `CENTER_FREQ`, a binary32 pattern in Hz. -/
  center : Word
  /-- x[1] `BANDWIDTH`, a binary32 pattern in Hz. -/
  bandwidth : Word
  /-- x[2] `NOTCH_FREQ`, a binary32 pattern in Hz; value 0 = disabled. -/
  notch : Word
  /-- x[3] `VOLUME`, a binary32 pattern. -/
  volume : Word
  /-- x[4] `ANTENNA_MODE`: 0 WIRE, 1 TV. Stored and readable, without effect (10 R34). -/
  antenna : Word
  /-- x[5] `DEMOD_MODE`: 0 AM, 1 FM, 2 PASSTHROUGH. -/
  demod : Word
  deriving DecidableEq, Repr

/-- The three tuning patterns FilterSpec was last synthesized from (10 R50). -/
structure Tag where
  center : Word
  bandwidth : Word
  notch : Word
  deriving DecidableEq, Repr

/-- The coefficient banks; `none` = the stage is bypassed (10 R50). -/
structure Banks (F : Type) where
  bpf : Option (Bank F 4)
  notch : Option (Bank F 1)
  lpf : Option (Bank F 2)
  deriving DecidableEq, Repr

/-- FilterSpec (10 R50). -/
structure FilterSpec (F : Type) where
  specValid : Bool
  tag : Tag
  banks : Banks F
  deriving DecidableEq, Repr

/-- The architectural state of the block, over the internal values `F` (10 R30 to R60). STATUS and CAUSE
are read from these fields (Flags.lean); ID and the CFG registers are constants of the configuration
(R44); CMD stores nothing (R45); the snapshot, the frame buffers and the delay elements live inside one
frame step only (R55, R56). -/
structure Block (F : Type) where
  tuning : Tuning
  /-- `VALID[5:0]` (10 R31). -/
  valid : BitVec 6
  /-- `RUN` (10 R40). -/
  run : Bool
  /-- `STATUS.CFGERR`, sticky (10 R41). -/
  cfgErr : Bool
  /-- `STATUS.SYNERR`, sticky (10 R41). -/
  synErr : Bool
  /-- `STATUS.UNDERRUN`, sticky (10 R41). -/
  underrun : Bool
  /-- `STATUS.FAULT`, sticky (10 R41). -/
  fault : Bool
  /-- `CAUSE.FAULT_CAUSE` (10 R42). -/
  faultCause : BitVec 4
  /-- `CAUSE.CFG_CAUSE` (10 R42). -/
  cfgCause : BitVec 4
  /-- `CAUSE.SYN_MASK` (10 R42). -/
  synMask : BitVec 3
  /-- `FRAME_COUNT` (10 R43). -/
  frameCount : Word
  /-- `UNDERRUN_COUNT` (10 R43). -/
  underrunCount : Word
  /-- `FAULT_COUNT` (10 R43). -/
  faultCount : Word
  spec : FilterSpec F
  deriving DecidableEq, Repr

/-- A transition of the block that the environment brings about (20 R80; 70 R320). -/
inductive Event where
  /-- One register-bus transaction. -/
  | bus (tw : TransWord)
  /-- One frame tick. -/
  | tick (t : FrameTick)
  /-- The hardware reset input; the frame ticks that arrive during it are listed and have no effect. -/
  | hwReset (during : List FrameTick)
  deriving DecidableEq, Repr

/-- The whole machine: the block, the transitions still to come, and what the ports presented in the
latest transition. The last three are the model's form of the ports (log 1, log 2, log 13). -/
structure State where
  block : Block Value
  /-- The transitions to come, oldest first: the total order of 20 R80. DESIGN CHOICE (log 1): safe. -/
  inputs : List Event
  /-- What the bus returned in the latest transition, if that was a read (20 R74). DESIGN CHOICE (log 2): safe. -/
  busRead : Option Word
  /-- The frame the output port presented in the latest transition, if any (20 R78). DESIGN CHOICE (log 2): safe. -/
  outPort : Option (List Word)
  deriving DecidableEq, Repr

/-- The machine never stops with a fault: "No event stops the block" (60 R294); every condition the spec
calls an error is an event taken inside its transition (60 R292). Log 17: safe. -/
inductive Fault where
  deriving DecidableEq, Repr

/-- Why a step has no meaning. -/
inductive Refusal where
  /-- Raised by `exec` for an instruction that has no meaning yet. No arm raises it in this model. Safe. -/
  | notModelled (mnemonic : String)
  /-- Raised by `step` for a frame tick while RUN = 1 and the mode code is 3: SEL = 0b111 has no row in
  the opcode table, cannot occur in a reachable state, and "a model should make the case a refusal"
  (43 R219; 93 U14). Log 8: safe. -/
  | reservedSelector
  deriving DecidableEq, Repr

/-- The block after reset (10 R60; 70 R320). -/
def Block.reset {F : Type} : Block F where
  tuning := ⟨0#32, 0#32, 0#32, 0#32, 0#32, 0#32⟩
  valid := 0#6
  run := false
  cfgErr := false
  synErr := false
  underrun := false
  fault := false
  faultCause := 0#4
  cfgCause := 0#4
  synMask := 0#3
  frameCount := 0#32
  underrunCount := 0#32
  faultCount := 0#32
  spec := ⟨false, ⟨0#32, 0#32, 0#32⟩, ⟨none, none, none⟩⟩

/-- The machine after reset: the block as 10 R60 has it, nothing pending, no port has presented
anything (10 R60: "the output port has emitted nothing"). -/
def State.reset : State where
  block := Block.reset
  inputs := []
  busRead := none
  outPort := none

end Sys2Proof.Machine
end

