-- ==== Sys2Proof/Machine/Operands.lean ====
section
/-! DEFINITION. The operand forms: the tuning registers by number, which values each may hold, the
selector of a frame tick, and the frame's samples (spec 10 R30; 30 R101 to R105; 43 R213, R214, R216). -/

namespace Sys2Proof.Machine

/-- `x[i]` (00 R13, 10 R30). -/
def readTuning (x : Tuning) (i : Fin 6) : Word :=
  match i with
  | 0 => x.center
  | 1 => x.bandwidth
  | 2 => x.notch
  | 3 => x.volume
  | 4 => x.antenna
  | 5 => x.demod

/-- `x[i] <- v` (00 R13, 10 R30). -/
def writeTuning (x : Tuning) (i : Fin 6) (v : Word) : Tuning :=
  match i with
  | 0 => { x with center := v }
  | 1 => { x with bandwidth := v }
  | 2 => { x with notch := v }
  | 3 => { x with volume := v }
  | 4 => { x with antenna := v }
  | 5 => { x with demod := v }

/-- The legal values of `x[i]` (10 R30 table; 44 R241 to R246). -/
def legalTuning (i : Fin 6) (v : Word) : Bool :=
  match i with
  | 0 => pos v
  | 1 => pos v
  | 2 => nonneg v
  | 3 => unitRange v
  | 4 => v.toNat < 2
  | 5 => v.toNat < 3

/-- `VALID[i]` alone (10 R31). -/
def validBit (i : Fin 6) : BitVec 6 := BitVec.twoPow 6 i.val

/-- `TUNED`: all six tuning registers hold a value (10 R41). -/
def tuned (valid : BitVec 6) : Bool := valid == 0b111111#6

/-- SEL = RUN, mode[1:0] (30 R105); the mode code is the low two bits of `DEMOD_MODE` (log 8). -/
def selector (run : Bool) (x : Tuning) : BitVec 3 := BitVec.ofBool run ++ x.demod.extractLsb' 0 2

/-- The tag of a snapshot: the three fields synthesis depends on (40 R130). -/
def tagOf (x : Tuning) : Tag := ⟨x.center, x.bandwidth, x.notch⟩

/-- The padded frame of `n` patterns: the first `min(k_in, n)` samples, then silence (43 R213, 20 R77). -/
def paddedFrame (n : Nat) (t : FrameTick) : List Word :=
  let k := min t.kIn n
  t.samples.take k ++ List.replicate (n - k) 0#32

/-- The frame is short: `k < N` (43 R213). -/
def isShort (n : Nat) (t : FrameTick) : Bool := min t.kIn n < n

/-- `CHECKIN` and `CHECKOUT`: every pattern is finite (43 R214, R216). -/
def allFinite (p : List Word) : Bool := p.all finite

/-- `SILENCE`, `n` patterns `0x00000000` (43 R217). -/
def silence (n : Nat) : List Word := List.replicate n 0#32

end Sys2Proof.Machine
end

