-- ==== Sys2Proof/Machine/Flags.lean ====
section
/-! DEFINITION. STATUS and CAUSE as the bus reads them, and the write-one-to-clear of the sticky bits
(spec 10 R41, R42; 44 R252). -/

namespace Sys2Proof.Machine

variable {F : Type}

/-- `BPF_ON` (10 R41). -/
def bpfOn (b : Block F) : Bool := b.spec.specValid && b.spec.banks.bpf.isSome
/-- `NOTCH_ON` (10 R41). -/
def notchOn (b : Block F) : Bool := b.spec.specValid && b.spec.banks.notch.isSome
/-- `LPF_ON` (10 R41). -/
def lpfOn (b : Block F) : Bool := b.spec.specValid && b.spec.banks.lpf.isSome

/-- STATUS, from bit 31 down: 31:22 reserved, 21:16 VALID, 15:11 reserved, LPF_ON, NOTCH_ON, BPF_ON,
FAULT, UNDERRUN, SYNERR, CFGERR, reserved, SPEC_VALID, TUNED, RUN (10 R41). -/
def statusWord (b : Block F) : Word :=
  0#10 ++ b.valid ++ 0#5 ++ BitVec.ofBool (lpfOn b) ++ BitVec.ofBool (notchOn b) ++
    BitVec.ofBool (bpfOn b) ++ BitVec.ofBool b.fault ++ BitVec.ofBool b.underrun ++
    BitVec.ofBool b.synErr ++ BitVec.ofBool b.cfgErr ++ 0#1 ++ BitVec.ofBool b.spec.specValid ++
    BitVec.ofBool (tuned b.valid) ++ BitVec.ofBool b.run

/-- CAUSE, from bit 31 down: 31:19 reserved, 18:16 SYN_MASK, 15:12 reserved, 11:8 CFG_CAUSE,
7:4 reserved, 3:0 FAULT_CAUSE (10 R42). -/
def causeWord (b : Block F) : Word :=
  0#13 ++ b.synMask ++ 0#4 ++ b.cfgCause ++ 0#4 ++ b.faultCause

/-- Each sticky bit b in 4..7 is cleared where the mask has a 1; all other bits of the mask are
ignored, CAUSE and the counters stay (44 R252). -/
def clearSticky (mask : Word) (b : Block F) : Block F :=
  { b with
    cfgErr := b.cfgErr && !mask.getLsbD 4
    synErr := b.synErr && !mask.getLsbD 5
    underrun := b.underrun && !mask.getLsbD 6
    fault := b.fault && !mask.getLsbD 7 }

end Sys2Proof.Machine
end

