-- ==== Sys2Proof/Machine/Ops.lean ====
section
/-! DEFINITION. The named operations on the state that the meanings share: raising an event (the block's
form of taking an exception), the register read, the setters' store, the run gate, reset, the ports
(spec 20 R74 to R78; 43 R217, R218; 44 R247 to R251; 60 R280 to R287; 70 R320). -/

namespace Sys2Proof.Machine

/-- Why a host write was refused (60 R282). -/
inductive ConfigCause where
  | illegalValue
  | reservedCode
  | reservedCommand
  | startRefused
  | badWriteAddress
  deriving DecidableEq, Repr

/-- Why a frame failed (60 R281). -/
inductive FaultCause where
  | inputNonfinite
  | outputNonfinite
  deriving DecidableEq, Repr

/-- The events of 60 R280. -/
inductive RaisedEvent where
  | configError (cause : ConfigCause)
  | synthesisError (mask : BitVec 3)
  | underrun
  | frameFault (cause : FaultCause)
  deriving DecidableEq, Repr

/-- `CAUSE.CFG_CAUSE` codes (60 R282). -/
def configCode : ConfigCause → BitVec 4
  | .illegalValue => 1#4
  | .reservedCode => 2#4
  | .reservedCommand => 3#4
  | .startRefused => 4#4
  | .badWriteAddress => 5#4

/-- `CAUSE.FAULT_CAUSE` codes (60 R281). -/
def faultCode : FaultCause → BitVec 4
  | .inputNonfinite => 1#4
  | .outputNonfinite => 2#4

section BlockOps

variable {F : Type}

/-- Raising an event: its sticky bit, its cause field, its counter, and nothing else; control goes
nowhere and nothing else is saved (60 R280, R284 to R287, R292, R293). -/
def raiseEvent (e : RaisedEvent) (b : Block F) : Block F :=
  match e with
  | .configError c => { b with cfgErr := true, cfgCause := configCode c }
  | .synthesisError m => { b with synErr := true, synMask := m }
  | .underrun => { b with underrun := true, underrunCount := b.underrunCount + 1 }
  | .frameFault c => { b with fault := true, faultCause := faultCode c, faultCount := b.faultCount + 1 }

/-- `ID`, "AMFB" (10 R44). -/
def idWord : Word := 0x414D4642#32

/-- Word `j` of a bank's part of the coefficient window, `j = 5·s + c`: `to_b32` of coefficient `c` of
section `s`, and 0 when the bank is absent (10 R51, 20 R76). -/
def windowWord (M : Num F) {k : Nat} (bank : Option (Bank F k)) (j : Nat) : Word :=
  match bank with
  | none => 0#32
  | some c =>
    match (c.toList.flatMap Biquad.coeffs)[j]? with
    | some v => M.toB32 v
    | none => 0#32

/-- The coefficient window 0x40 to 0x53, 0x58 to 0x5C, 0x60 to 0x69; every other address that the map
does not name reads 0 (20 R76). -/
def windowRead (C : Cfg F) (b : Block F) (a : Nat) : Word :=
  if 0x40 ≤ a ∧ a ≤ 0x53 then windowWord C.num b.spec.banks.bpf (a - 0x40)
  else if 0x58 ≤ a ∧ a ≤ 0x5C then windowWord C.num b.spec.banks.notch (a - 0x58)
  else if 0x60 ≤ a ∧ a ≤ 0x69 then windowWord C.num b.spec.banks.lpf (a - 0x60)
  else 0#32

/-- `MemRead(A, 4)`: the register map's read values (20 R74, R76). -/
def readReg (C : Cfg F) (b : Block F) (a : Addr) : Word :=
  match a.toNat with
  | 0x00 => idWord
  | 0x01 => BitVec.ofNat 32 C.n
  | 0x02 => C.fsBits
  | 0x03 => C.flpBits
  | 0x04 => C.qnBits
  | 0x05 => C.gfmBits
  | 0x09 => statusWord b
  | 0x0A => causeWord b
  | 0x0B => b.frameCount
  | 0x0C => b.underrunCount
  | 0x0D => b.faultCount
  | 0x10 => b.tuning.center
  | 0x11 => b.tuning.bandwidth
  | 0x12 => b.tuning.notch
  | 0x13 => b.tuning.volume
  | 0x14 => b.tuning.antenna
  | 0x15 => b.tuning.demod
  | 0x18 => b.spec.tag.center
  | 0x19 => b.spec.tag.bandwidth
  | 0x1A => b.spec.tag.notch
  | n => windowRead C b n

/-- A setter write of `x[i]`: a legal value is stored and `VALID[i]` set; any other is dropped with
`ConfigError(cause)` (44 R241 to R247). -/
def setTuning (i : Fin 6) (cause : ConfigCause) (d : Word) (b : Block F) : Block F :=
  if legalTuning i d then
    { b with tuning := writeTuning b.tuning i d, valid := b.valid ||| validBit i }
  else raiseEvent (.configError cause) b

/-- `CMD.START`: accepted only when all six registers hold a value (44 R249). -/
def startRun (b : Block F) : Block F :=
  if tuned b.valid then { b with run := true } else raiseEvent (.configError .startRefused) b

/-- `CMD.STOP` (44 R250). -/
def stopRun (b : Block F) : Block F := { b with run := false }

/-- Reset, by the input or by `CMD.RESET`: every element at its reset value (70 R320, 44 R251). -/
def resetBlock (_ : Block F) : Block F := Block.reset

/-- `EMIT(o)`: the frame goes to the output port and `FRAME_COUNT` advances (43 R218). -/
def emit (o : List Word) (b : Block F) : Block F × List Word :=
  ({ b with frameCount := b.frameCount + 1 }, o)

/-- Containment of a failed frame: the fault is raised and silence emitted (43 R217, 60 R287). -/
def failFrame (n : Nat) (cause : FaultCause) (b : Block F) : Block F × List Word :=
  emit (silence n) (raiseEvent (.frameFault cause) b)

end BlockOps

section StateOps

/-- An operation on the block alone; the ports present nothing. -/
def onBlock (f : Block Value → Block Value) (s : State) : State := { s with block := f s.block }

/-- The bus returns a word (20 R74). -/
def respond (w : Word) (s : State) : State := { s with busRead := some w }

/-- The result of a frame step: the block, and the frame on the output port (20 R78). -/
def present (r : Block Value × List Word) (s : State) : State :=
  { s with block := r.1, outPort := some r.2 }

/-- The start of a transition: the event is taken from the pending ones, and the ports no longer
present what the transition before left there ("once", 20 R78, 43 R218; log 2). -/
def beginTransition (rest : List Event) (s : State) : State :=
  { s with inputs := rest, busRead := none, outPort := none }

end StateOps

end Sys2Proof.Machine
end

