-- ==== Sys2Proof/Machine/Access.lean ====
section
/-! DEFINITION. The meanings of the status clear, the refused write and the read (spec 44 R252 to R254). -/

namespace Sys2Proof.Machine

/-- `W1C.STATUS` (44 R252). -/
def execW1cStatus (mask : Word) (s : State) : Host.Outcome State Fault Refusal :=
  .next (onBlock (clearSticky mask) s)

/-- `WR.REFUSED`: the write changes no register, whatever its address and data (44 R253). -/
def execWrRefused (_addr : Addr) (_data : Word) (s : State) : Host.Outcome State Fault Refusal :=
  .next (onBlock (raiseEvent (.configError .badWriteAddress)) s)

/-- `RD`: the bus returns the register's value; the block does not change (44 R254, 20 R74). -/
def execRd (addr : Addr) (s : State) : Host.Outcome State Fault Refusal :=
  .next (respond (readReg Config.cfg s.block addr) s)

end Sys2Proof.Machine
end

