-- ==== Sys2Proof/Machine/Commands.lean ====
section
/-! DEFINITION. The meanings of the commands (spec 44 R248 to R251). -/

namespace Sys2Proof.Machine

/-- `CMD.NOP`: no state change, no flag (44 R248). -/
def execCmdNop (s : State) : Host.Outcome State Fault Refusal := .next s

/-- `CMD.START` (44 R249). -/
def execCmdStart (s : State) : Host.Outcome State Fault Refusal := .next (onBlock startRun s)

/-- `CMD.STOP` (44 R250). -/
def execCmdStop (s : State) : Host.Outcome State Fault Refusal := .next (onBlock stopRun s)

/-- `CMD.RESET` (44 R251, 70 R320). The pending events are the environment's and stay (log 23). -/
def execCmdReset (s : State) : Host.Outcome State Fault Refusal := .next (onBlock resetBlock s)

/-- `CMD.RSVD`: a reserved command opcode is refused whatever its data (44 R248). -/
def execCmdRsvd (_data : Word) (s : State) : Host.Outcome State Fault Refusal :=
  .next (onBlock (raiseEvent (.configError .reservedCommand)) s)

end Sys2Proof.Machine
end

