-- ==== Sys2Proof/Machine/FilterApply.lean ====
section
/-! DEFINITION. Zero-phase application of a coefficient bank to a frame: BIQUAD, CASCADE, ZP (spec 41
R160 to R163), in exactly the operation order of the rules. -/

namespace Sys2Proof.Machine

variable {F : Type}

/-- The loop of `BIQUAD` from the delay elements `s1`, `s2`, in transposed direct form II (41 R160). -/
def biquadFrom (M : Num F) (sec : Biquad F) : F → F → List F → List F
  | _, _, [] => []
  | s1, s2, v :: vs =>
    let w := M.add (M.mul sec.b0 v) s1
    let t := M.add (M.sub (M.mul sec.b1 v) (M.mul sec.a1 w)) s2
    w :: biquadFrom M sec t (M.sub (M.mul sec.b2 v) (M.mul sec.a2 w)) vs

/-- `BIQUAD(sec, v)`: both delay elements start at ZERO (41 R160). -/
def biquad (M : Num F) (sec : Biquad F) (v : List F) : List F :=
  biquadFrom M sec (M.ofNat 0) (M.ofNat 0) v

/-- `CASCADE(bank, v)`: the sections in index order, each over the whole frame (41 R161). -/
def cascade (M : Num F) {k : Nat} (bank : Bank F k) (v : List F) : List F :=
  bank.toList.foldl (fun u sec => biquad M sec u) v

/-- `ZP(bank, v)`: forward, then backward over the reversed frame; an absent bank is bypassed with no
arithmetic (41 R162, R163). -/
def zeroPhase (M : Num F) {k : Nat} (bank : Option (Bank F k)) (v : List F) : List F :=
  match bank with
  | none => v
  | some c => (cascade M c (cascade M c v).reverse).reverse

end Sys2Proof.Machine
end

