-- ==== Sys2Proof/Machine/Demodulator.lean ====
section
/-! DEFINITION. The demodulator: its frame-wide primitives and the three demodulation sequences (spec 42
R180 to R192). All of them are pure functions of the frame, the snapshot and the banks. -/

namespace Sys2Proof.Machine

variable {F : Type}

/-- `DEMOD_MODE`, the three codes that have a meaning (30 R103). -/
inductive DemodMode where
  | am
  | fm
  | passthrough
  deriving DecidableEq, Repr

/-- `CARRIER(fc)`: the cosine whose phase is zero at index 0 of every frame (42 R181). -/
def carrier (C : Cfg F) (fc : F) : List F :=
  (List.range C.n).map fun n =>
    C.num.cos (C.num.div (C.num.mul (C.num.mul C.num.twoPi fc) (C.num.ofNat n)) C.fsf)

/-- `MIX(v, c)` (42 R182). -/
def mix (M : Num F) (v c : List F) : List F := List.zipWith M.mul v c

/-- `ABS(v)` (42 R183). -/
def rectify (M : Num F) (v : List F) : List F := v.map M.abs

/-- `DIFF(v)`: ZERO at index 0, then each sample less the one before it (42 R186). -/
def diff (M : Num F) (v : List F) : List F :=
  match v with
  | [] => []
  | x :: xs => M.ofNat 0 :: List.zipWith (fun before now => M.sub now before) (x :: xs) xs

/-- `GAIN(v)` (42 R187). -/
def gain (C : Cfg F) (v : List F) : List F := v.map fun x => C.num.mul C.gfmf x

/-- `VOL(v, vol)` (42 R188). -/
def scaleVolume (M : Num F) (vol : F) (v : List F) : List F := v.map fun x => M.mul vol x

/-- `DEMOD_AM(xs, fc, vol)` (42 R190). -/
def demodAm (C : Cfg F) (banks : Banks F) (fc vol : F) (xs : List F) : List F :=
  let c := carrier C fc
  let m := mix C.num xs c
  let r := rectify C.num m
  let e := zeroPhase C.num banks.lpf r
  scaleVolume C.num vol e

/-- `DEMOD_FM(xs, vol)` (42 R191). -/
def demodFm (C : Cfg F) (banks : Banks F) (vol : F) (xs : List F) : List F :=
  let b := zeroPhase C.num banks.bpf xs
  let d := diff C.num b
  let r := rectify C.num d
  let g := gain C r
  let a := zeroPhase C.num banks.lpf g
  scaleVolume C.num vol a

/-- `DEMOD_PT(xs, vol)`: the band-pass first, then the notch (42 R192). -/
def demodPt (C : Cfg F) (banks : Banks F) (vol : F) (xs : List F) : List F :=
  let b := zeroPhase C.num banks.bpf xs
  let t := zeroPhase C.num banks.notch b
  scaleVolume C.num vol t

/-- The sequence of the snapshot's mode; it depends on nothing else (42 R193). -/
def demodulate (C : Cfg F) (mode : DemodMode) (banks : Banks F) (snap : Tuning) (xs : List F) : List F :=
  match mode with
  | .am => demodAm C banks (C.num.ofB32 snap.center) (C.num.ofB32 snap.volume) xs
  | .fm => demodFm C banks (C.num.ofB32 snap.volume) xs
  | .passthrough => demodPt C banks (C.num.ofB32 snap.volume) xs

end Sys2Proof.Machine
end

