-- ==== Sys2Proof/Machine/FilterSynthesis.lean ====
section
/-! DEFINITION. Coefficient synthesis on parameter change: CLAMP, the three stage decisions, CHK and
SYNTH (spec 40 R130 to R136). -/

namespace Sys2Proof.Machine

variable {F : Type}

/-- `CLAMP(fc, bw)`, the band-pass cutoffs (40 R131). -/
def clamp (C : Cfg F) (fc bw : F) : F × F :=
  let h := C.num.mul C.half bw
  (C.num.max C.one (C.num.sub fc h), C.num.min (C.num.sub C.nyqf C.one) (C.num.add fc h))

/-- Every coefficient of every section is finite (40 R136). -/
def bankFinite (M : Num F) {k : Nat} (c : Bank F k) : Bool :=
  c.toList.all fun s => s.coeffs.all M.isFinite

/-- `CHK(r)`, the coefficient finiteness check (40 R136). -/
def chk (M : Num F) {k : Nat} (r : Option (Bank F k)) : Option (Bank F k) :=
  match r with
  | none => none
  | some c => if bankFinite M c then some c else none

/-- A stage after CHK with its error bit: a bank without error, or bypass with error (40 R132 to R134). -/
def decideStage (M : Num F) {k : Nat} (r : Option (Bank F k)) : Option (Bank F k) × Bool :=
  (chk M r, (chk M r).isNone)

/-- `BPF_DECIDE(f_lo, f_hi)` (40 R132). -/
def bpfDecide (C : Cfg F) (lo hi : F) : Option (Bank F 4) × Bool :=
  if C.num.le hi lo then (none, true) else decideStage C.num (C.syn.bpf lo hi)

/-- `NOTCH_DECIDE(fn)` (40 R133). -/
def notchDecide (C : Cfg F) (fn : F) : Option (Bank F 1) × Bool :=
  if !C.num.lt C.zero fn then (none, false)
  else if !C.num.lt fn C.nyqf then (none, true)
  else decideStage C.num (C.syn.notch fn)

/-- `LPF_DECIDE()` (40 R134). -/
def lpfDecide (C : Cfg F) : Option (Bank F 2) × Bool := decideStage C.num C.syn.lpf

/-- The banks and the error mask that a synthesis from `tag` computes: `Synth` (40 R130, R135). -/
def synthesize (C : Cfg F) (tag : Tag) : Banks F × BitVec 3 :=
  let cut := clamp C (C.num.ofB32 tag.center) (C.num.ofB32 tag.bandwidth)
  let bp := bpfDecide C cut.1 cut.2
  let no := notchDecide C (C.num.ofB32 tag.notch)
  let lp := lpfDecide C
  (⟨bp.1, no.1, lp.1⟩, BitVec.ofBool lp.2 ++ BitVec.ofBool no.2 ++ BitVec.ofBool bp.2)

/-- `SYNTH(snap)`: nothing when the tag is current, else new banks, tag and `SYN_MASK`, and
`SynthesisError` when a stage failed (40 R130). -/
def synth (C : Cfg F) (tag : Tag) (b : Block F) : Block F :=
  if b.spec.specValid && b.spec.tag == tag then b
  else
    let r := synthesize C tag
    let b' := { b with spec := ⟨true, tag, r.1⟩, synMask := r.2 }
    if r.2 = 0#3 then b' else raiseEvent (.synthesisError r.2) b'

end Sys2Proof.Machine
end

