-- ==== Sys2Proof/Machine/Frame.lean ====
section
/-! DEFINITION. The frame step and the meanings of FRAME.IDLE, FRAME.AM, FRAME.FM and FRAME.PT (spec 43
R210 to R219; 42 R190 to R193). -/

namespace Sys2Proof.Machine

section FrameStep

variable {F : Type}

/-- `LOADPAD`'s event: a short frame is an underrun, and the step goes on (43 R213, 60 R286). -/
def noteUnderrun (C : Cfg F) (t : FrameTick) (b : Block F) : Block F :=
  if isShort C.n t then raiseEvent .underrun b else b

/-- The result patterns of a frame that passed CHECKIN, with the FilterSpec of its own SYNTH: `of_b32`,
demodulation, `to_b32` (43 R210, R226). -/
def framePatterns (C : Cfg F) (mode : DemodMode) (snap : Tuning) (banks : Banks F) (p : List Word) :
    List Word :=
  (demodulate C mode banks snap (p.map C.num.ofB32)).map C.num.toB32

/-- The frame step with RUN = 1, in the order of 43 R210: snapshot, pad, CHECKIN, SYNTH, demodulation,
CHECKOUT, EMIT; a failed check ends it with silence (R217). -/
def frameStep (C : Cfg F) (mode : DemodMode) (t : FrameTick) (b : Block F) : Block F × List Word :=
  let snap := b.tuning
  let p := paddedFrame C.n t
  let b1 := noteUnderrun C t b
  if allFinite p then
    let b2 := synth C (tagOf snap) b1
    let o := framePatterns C mode snap b2.spec.banks p
    if allFinite o then emit o b2 else failFrame C.n .outputNonfinite b2
  else failFrame C.n .inputNonfinite b1

end FrameStep

/-- `FRAME.IDLE`: a frame tick while stopped does nothing (43 R211). -/
def execFrameIdle (_tick : FrameTick) (s : State) : Host.Outcome State Fault Refusal := .next s

/-- `FRAME.AM` (42 R190, 43 R210). -/
def execFrameAm (tick : FrameTick) (s : State) : Host.Outcome State Fault Refusal :=
  .next (present (frameStep Config.cfg .am tick s.block) s)

/-- `FRAME.FM` (42 R191, 43 R210). -/
def execFrameFm (tick : FrameTick) (s : State) : Host.Outcome State Fault Refusal :=
  .next (present (frameStep Config.cfg .fm tick s.block) s)

/-- `FRAME.PT` (42 R192, 43 R210). -/
def execFramePt (tick : FrameTick) (s : State) : Host.Outcome State Fault Refusal :=
  .next (present (frameStep Config.cfg .passthrough tick s.block) s)

end Sys2Proof.Machine
end

