-- ==== Sys2Proof/Machine/Setters.lean ====
section
/-! DEFINITION. The meanings of the six setters (spec 44 R241 to R247). -/

namespace Sys2Proof.Machine

/-- `WR.CENTER` (44 R241). -/
def execWrCenter (data : Word) (s : State) : Host.Outcome State Fault Refusal :=
  .next (onBlock (setTuning 0 .illegalValue data) s)

/-- `WR.BANDWIDTH` (44 R242). -/
def execWrBandwidth (data : Word) (s : State) : Host.Outcome State Fault Refusal :=
  .next (onBlock (setTuning 1 .illegalValue data) s)

/-- `WR.NOTCH` (44 R243). -/
def execWrNotch (data : Word) (s : State) : Host.Outcome State Fault Refusal :=
  .next (onBlock (setTuning 2 .illegalValue data) s)

/-- `WR.VOLUME` (44 R244). -/
def execWrVolume (data : Word) (s : State) : Host.Outcome State Fault Refusal :=
  .next (onBlock (setTuning 3 .illegalValue data) s)

/-- `WR.ANTENNA` (44 R245). -/
def execWrAntenna (data : Word) (s : State) : Host.Outcome State Fault Refusal :=
  .next (onBlock (setTuning 4 .reservedCode data) s)

/-- `WR.DEMOD` (44 R246). -/
def execWrDemod (data : Word) (s : State) : Host.Outcome State Fault Refusal :=
  .next (onBlock (setTuning 5 .reservedCode data) s)

end Sys2Proof.Machine
end

