-- ==== Sys2Proof/Machine/Dispatch.lean ====
section
/-! DEFINITION. One arm per row of the opcode table (spec 30 R104, R105). -/

namespace Sys2Proof.Machine

def exec (i : Instr) (s : State) : Host.Outcome State Fault Refusal :=
  match i with
  | .wrCenter data => Sys2Proof.Machine.execWrCenter data s
  | .wrBandwidth data => Sys2Proof.Machine.execWrBandwidth data s
  | .wrNotch data => Sys2Proof.Machine.execWrNotch data s
  | .wrVolume data => Sys2Proof.Machine.execWrVolume data s
  | .wrAntenna data => Sys2Proof.Machine.execWrAntenna data s
  | .wrDemod data => Sys2Proof.Machine.execWrDemod data s
  | .cmdNop => Sys2Proof.Machine.execCmdNop s
  | .cmdStart => Sys2Proof.Machine.execCmdStart s
  | .cmdStop => Sys2Proof.Machine.execCmdStop s
  | .cmdReset => Sys2Proof.Machine.execCmdReset s
  | .cmdRsvd data => Sys2Proof.Machine.execCmdRsvd data s
  | .w1cStatus mask => Sys2Proof.Machine.execW1cStatus mask s
  | .wrRefused addr data => Sys2Proof.Machine.execWrRefused addr data s
  | .rd addr => Sys2Proof.Machine.execRd addr s
  | .frameIdle tick => Sys2Proof.Machine.execFrameIdle tick s
  | .frameAm tick => Sys2Proof.Machine.execFrameAm tick s
  | .frameFm tick => Sys2Proof.Machine.execFrameFm tick s
  | .framePt tick => Sys2Proof.Machine.execFramePt tick s

end Sys2Proof.Machine
end

