-- ==== Sys2Proof/Machine/Cycle.lean ====
section
/-! DEFINITION. One transition: which event is next, the request it makes, its execution; and how a table
word is placed for the next transition (spec 20 R80; 30 R105; 70 R320). -/

namespace Sys2Proof.Machine

/-- A request runs as the instruction it decodes to; the reserved selector is refused (43 R219). -/
def runRequest (r : Request) (s : State) : Host.Outcome State Fault Refusal :=
  match decode r with
  | .ok i => exec i s
  | .error .reservedSelector => .refused .reservedSelector

/-- The request a frame tick makes: the engine reads RUN and the mode from its state (30 R105). -/
def tickRequest (s : State) (t : FrameTick) : Request :=
  .frame (selector s.block.run s.block.tuning) t

/-- One event as one atomic transition (20 R80). Hardware reset has the effect of `CMD.RESET`, and
frame ticks during it have none (70 R320; log 10). -/
def runEvent (e : Event) (s : State) : Host.Outcome State Fault Refusal :=
  match e with
  | .bus tw => runRequest (.host tw) s
  | .tick t => runRequest (tickRequest s t) s
  | .hwReset _ => .next (onBlock resetBlock s)

/-- The next transition: the oldest pending event. With none pending no transition takes place and the
state stays (log 1). -/
def nextTransition (s : State) : Host.Outcome State Fault Refusal :=
  match s.inputs with
  | [] => .next s
  | e :: rest => runEvent e (beginTransition rest s)

/-- The state from which the next transition is the request's: its event becomes the oldest pending
one, and a frame's selector is put where the engine reads it, in RUN and (when RUN = 1) in
`DEMOD_MODE` (30 R105; log 3). -/
def placeRequest (r : Request) (s : State) : State :=
  match r with
  | .host tw => { s with inputs := .bus tw :: s.inputs }
  | .frame sel t =>
    let b := s.block
    let x := if sel.getLsbD 2 then { b.tuning with demod := (sel.extractLsb' 0 2).setWidth 32 } else b.tuning
    { s with inputs := .tick t :: s.inputs, block := { b with run := sel.getLsbD 2, tuning := x } }

end Sys2Proof.Machine
end

