-- ==== Sys2Proof/Machine/Step.lean ====
section
/-! DEFINITION. The step of the machine, and the placing of a table word for it (spec 20 R80). -/

namespace Sys2Proof.Machine

/-- One step: the next transition in the total order of 20 R80. -/
def step (s : State) : Host.Outcome State Fault Refusal := nextTransition s

/-- The state whose very next step runs the instruction with bits `w` (log 3). -/
def State.withFetchWord (s : State) (nbits w : Nat) : State := placeRequest (tableRequest nbits w) s

end Sys2Proof.Machine
end

