-- ==== Sys2Proof/Machine/NumIeee.lean ====
section
/-! DEFINITION. NUM_IEEE(fmt), the arithmetic of an IEEE 754 binary format in round-to-nearest-even, for
any widths of the exponent and fraction fields; the cosine and two_pi are arguments, since R12 calls them
implementation-defined (spec 00 R12; 93 U3). One of the two named instances; not run by the step. -/

namespace Sys2Proof.Machine

/-- A binary interchange format: widths of its exponent and fraction fields. Binary32 is 8 and 23. -/
structure IeeeFormat where
  expBits : Nat
  fracBits : Nat
  deriving DecidableEq, Repr

/-- A value of the format is its pattern: sign, exponent, fraction. -/
abbrev IeeeValue (f : IeeeFormat) := BitVec (1 + (f.expBits + f.fracBits))

/-- At least as wide as binary32 (00 R12). -/
def ieeeWideEnough (f : IeeeFormat) : Prop := 8 ≤ f.expBits ∧ 23 ≤ f.fracBits

section Ieee

variable (f : IeeeFormat)

/-- The pattern of +infinity: all ones in the exponent field. -/
def ieeeInfBits : Nat := (2 ^ f.expBits - 1) * 2 ^ f.fracBits

/-- The unit of magnitudes, the smallest subnormal, is `2 ^ -ieeeUnit`. For binary32 it is 2^-149. -/
def ieeeUnit : Nat := 2 ^ (f.expBits - 1) - 2 + f.fracBits

variable {f}

/-- The pattern without its sign. -/
def ieeeBits (x : IeeeValue f) : Nat := x.toNat % 2 ^ (f.expBits + f.fracBits)

/-- A pattern from its sign and its other bits. -/
def ieeeOf (neg : Bool) (bits : Nat) : IeeeValue f :=
  BitVec.ofNat _ ((if neg then 2 ^ (f.expBits + f.fracBits) else 0) + bits)

def ieeeNegative (x : IeeeValue f) : Bool := 2 ^ (f.expBits + f.fracBits) ≤ x.toNat
def ieeeIsNan (x : IeeeValue f) : Bool := ieeeInfBits f < ieeeBits x
def ieeeIsInf (x : IeeeValue f) : Bool := ieeeBits x == ieeeInfBits f
def ieeeIsZero (x : IeeeValue f) : Bool := ieeeBits x == 0

/-- The quiet NaN an invalid operation gives. DESIGN CHOICE (log 19). -/
def ieeeNan : IeeeValue f := ieeeOf false (ieeeInfBits f + 2 ^ (f.fracBits - 1))

/-- The magnitude of a finite value, in units of the smallest subnormal. -/
def ieeeMag (x : IeeeValue f) : Nat :=
  let e := ieeeBits x / 2 ^ f.fracBits
  let m := ieeeBits x % 2 ^ f.fracBits
  if e = 0 then m else (2 ^ f.fracBits + m) * 2 ^ (e - 1)

/-- The signed magnitude of a finite value, in the same units. -/
def ieeeInt (x : IeeeValue f) : Int := if ieeeNegative x then -(ieeeMag x : Int) else ieeeMag x

/-- Rounding of an exact magnitude, in units, to nearest even, with its sign. -/
def ieeePack (neg : Bool) (q : ℚ) : IeeeValue f :=
  ieeeOf neg (roundMag f.fracBits (ieeeInfBits f) q)

/-- A NaN operand is the result, the first one if both are (log 19). -/
def ieeeNanFirst (a b : IeeeValue f) (otherwise : IeeeValue f) : IeeeValue f :=
  if ieeeIsNan a then a else if ieeeIsNan b then b else otherwise

def ieeeNeg (x : IeeeValue f) : IeeeValue f := ieeeOf (!ieeeNegative x) (ieeeBits x)
def ieeeAbs (x : IeeeValue f) : IeeeValue f := ieeeOf false (ieeeBits x)

/-- Addition of two values that are not NaN: an exact zero sum is −0 only for two negative zeros. -/
def ieeeAddNumbers (a b : IeeeValue f) : IeeeValue f :=
  if ieeeIsInf a then
    if ieeeIsInf b && ieeeNegative a != ieeeNegative b then ieeeNan else a
  else if ieeeIsInf b then b
  else
    let z := ieeeInt a + ieeeInt b
    if z = 0 then ieeeOf (ieeeNegative a && ieeeNegative b) 0
    else ieeePack (decide (z < 0)) (z.natAbs : ℚ)

def ieeeAdd (a b : IeeeValue f) : IeeeValue f := ieeeNanFirst a b (ieeeAddNumbers a b)
def ieeeSub (a b : IeeeValue f) : IeeeValue f := ieeeNanFirst a b (ieeeAddNumbers a (ieeeNeg b))

def ieeeMul (a b : IeeeValue f) : IeeeValue f :=
  let neg := ieeeNegative a != ieeeNegative b
  ieeeNanFirst a b <|
    if ieeeIsInf a || ieeeIsInf b then
      if ieeeIsZero a || ieeeIsZero b then ieeeNan else ieeeOf neg (ieeeInfBits f)
    else ieeePack neg ((ieeeMag a : ℚ) * ieeeMag b / 2 ^ ieeeUnit f)

def ieeeDiv (a b : IeeeValue f) : IeeeValue f :=
  let neg := ieeeNegative a != ieeeNegative b
  ieeeNanFirst a b <|
    if ieeeIsInf a then if ieeeIsInf b then ieeeNan else ieeeOf neg (ieeeInfBits f)
    else if ieeeIsInf b then ieeeOf neg 0
    else if ieeeIsZero b then
      if ieeeIsZero a then ieeeNan else ieeeOf neg (ieeeInfBits f)
    else ieeePack neg ((ieeeMag a : ℚ) / ieeeMag b * 2 ^ ieeeUnit f)

/-- The order of the patterns as signed magnitudes; both zeros have the key 0. -/
def ieeeKey (x : IeeeValue f) : Int := if ieeeNegative x then -(ieeeBits x : Int) else ieeeBits x

def ieeeOrdered (a b : IeeeValue f) : Bool := !ieeeIsNan a && !ieeeIsNan b
def ieeeLt (a b : IeeeValue f) : Bool := ieeeOrdered a b && decide (ieeeKey a < ieeeKey b)
def ieeeLe (a b : IeeeValue f) : Bool := ieeeOrdered a b && decide (ieeeKey a ≤ ieeeKey b)

/-- The exact widening of a binary32 pattern. -/
def ieeeWiden (w : Word) : IeeeValue f :=
  if finite w then ieeePack w.msb ((magUnits w : ℚ) / 2 ^ 149 * 2 ^ ieeeUnit f)
  else if fracField w = 0#23 then ieeeOf w.msb (ieeeInfBits f)
  else ieeeNan

/-- The narrowing to a binary32 pattern; the sign of a zero is kept, and a NaN gives `0x7FC00000`
(log 19). -/
def ieeeNarrow (x : IeeeValue f) : Word :=
  let sign : Word := if ieeeNegative x then 0x80000000#32 else 0#32
  if ieeeIsNan x then 0x7FC00000#32
  else if ieeeIsInf x then sign ||| 0x7F800000#32
  else sign ||| BitVec.ofNat 32 (roundMag 23 0x7F800000 ((ieeeMag x : ℚ) / 2 ^ ieeeUnit f * 2 ^ 149))

end Ieee

/-- `NUM_IEEE(fmt)` (00 R12), over the implementation's cosine and stored value of 2π. R9 gives `of_nat`
its type and R12 does not name it; here it is the natural number rounded to nearest even in the format,
infinity past the format's range. DESIGN CHOICE (log 26): safe, the rules use it below 65536 only, where
it is exact. -/
def numIeee (f : IeeeFormat) (cosine : IeeeValue f → IeeeValue f) (twoPi : IeeeValue f) :
    Num (IeeeValue f) where
  ofB32 w := ieeeWiden w
  toB32 x := ieeeNarrow x
  ofNat k := ieeePack false ((k : ℚ) * 2 ^ ieeeUnit f)
  add := ieeeAdd
  sub := ieeeSub
  mul := ieeeMul
  div := ieeeDiv
  abs := ieeeAbs
  max a b := if ieeeLt a b then b else a
  min a b := if ieeeLt b a then b else a
  lt := ieeeLt
  le := ieeeLe
  cos := cosine
  twoPi := twoPi

end Sys2Proof.Machine
end

