-- ==== Sys2Proof/Machine/NumReal.lean ====
section
/-! DEFINITION. NUM_REAL, the reference meaning of the arithmetic: exact real numbers, rounded to
binary32 only where a pattern is asked for (spec 00 R12). It is a specification, not run by the step. -/

namespace Sys2Proof.Machine

/-- `NUM_REAL` (00 R12). R12 asks exact operations and gives no quotient by the real number 0; `div` takes
Lean's `a / 0 = 0` there. DESIGN CHOICE (log 24): safe, the datapath divides by `FSf` alone. -/
noncomputable def numReal : Num ℝ where
  ofB32 w := (val w : ℝ)
  toB32 x := roundB32 x
  ofNat k := (k : ℝ)
  add a b := a + b
  sub a b := a - b
  mul a b := a * b
  div a b := a / b
  abs a := |a|
  max a b := Max.max a b
  min a b := Min.min a b
  lt a b := decide (a < b)
  le a b := decide (a ≤ b)
  cos a := Real.cos a
  twoPi := 2 * Real.pi

end Sys2Proof.Machine
end

