-- ==== Sys2Proof/Machine/SynRef.lean ====
section
/-! DEFINITION. SYN_REF, the reference synthesis: Butterworth band-pass and low-pass by the pre-warped
bilinear transform, and the second-order notch, in exact real and complex arithmetic (spec 40 R139 to
R142); and the test configuration CFG_REF (00 R6). A specification, not run by the step. -/

namespace Sys2Proof.Machine

/-- `p_k`, the poles of the order-4 Butterworth prototype, k = 1..4 (40 R139). -/
noncomputable def prototypePole (k : Nat) : ℂ :=
  Complex.exp (Complex.I * (Real.pi * (2 * k + 3) / 8 : ℝ))

/-- `W(f) = 2·FS·tan(π·f/FS)`, the pre-warped frequency (40 R139). -/
noncomputable def prewarp (fs f : ℝ) : ℝ := 2 * fs * Real.tan (Real.pi * f / fs)

/-- `z = (2·FS + s)/(2·FS − s)`, the bilinear transform (40 R139). -/
noncomputable def bilinear (fs : ℝ) (s : ℂ) : ℂ := (2 * fs + s) / (2 * fs - s)

/-- A square root of a complex number; the rules use both signs of it (40 R140). -/
noncomputable def complexSqrt (z : ℂ) : ℂ := z ^ (1 / 2 : ℂ)

/-- Ascending angle, ties by ascending magnitude (40 R140, R141). -/
def angleLe (z w : ℂ) : Prop := z.arg < w.arg ∨ (z.arg = w.arg ∧ ‖z‖ ≤ ‖w‖)

open Classical in
/-- The poles in the order of the sections (40 R140, R141). -/
noncomputable def sortPoles (zs : List ℂ) : List ℂ := zs.insertionSort angleLe

/-- `S`, the eight roots of `s² − p_k·B·s + W0sq = 0`, k = 1..4 (40 R140). -/
noncomputable def bandPassRoots (B w0sq : ℝ) : List ℂ :=
  [1, 2, 3, 4].flatMap fun k =>
    let m := prototypePole k * B
    let r := complexSqrt (m ^ 2 - 4 * w0sq)
    [(m + r) / 2, (m - r) / 2]

/-- `z_0 … z_3`: the roots in the upper half plane, through the bilinear transform, sorted (40 R140). -/
noncomputable def bandPassPoles (fs lo hi : ℝ) : List ℂ :=
  let wlo := prewarp fs lo
  let whi := prewarp fs hi
  let upper := (bandPassRoots (whi - wlo) (wlo * whi)).filter fun s => decide (0 < s.im)
  sortPoles (upper.map (bilinear fs))

/-- `θc`, the digital centre frequency (40 R140). -/
noncomputable def bandCentre (fs lo hi : ℝ) : ℝ :=
  2 * Real.arctan (Real.sqrt (prewarp fs lo * prewarp fs hi) / (2 * fs))

/-- The band-pass section of a pole: zeros at ±1, magnitude 1 at `θc` (40 R140). -/
noncomputable def bandPassSection (thc : ℝ) (z : ℂ) : Biquad ℝ :=
  let a1 := -2 * z.re
  let a2 := ‖z‖ ^ 2
  let g := ‖1 + a1 * Complex.exp (-(Complex.I * thc)) + a2 * Complex.exp (-(2 * Complex.I * thc))‖ /
    (2 * Real.sin thc)
  ⟨g, 0, -g, a1, a2⟩

/-- `SYN_REF.bpf` (40 R140). The last arm is never taken on the domain: exactly four roots have a
positive imaginary part (log 20). -/
noncomputable def refBandPass (fs lo hi : ℝ) : Option (Bank ℝ 4) :=
  if 0 < lo ∧ lo < hi ∧ hi < fs / 2 then
    match bandPassPoles fs lo hi with
    | [z0, z1, z2, z3] =>
      let sec := bandPassSection (bandCentre fs lo hi)
      some #v[sec z0, sec z1, sec z2, sec z3]
    | _ => none
  else none

/-- The low-pass section of a pole: both zeros at −1, gain 1 at 0 Hz (40 R141). -/
noncomputable def lowPassSection (z : ℂ) : Biquad ℝ :=
  let a1 := -2 * z.re
  let a2 := ‖z‖ ^ 2
  let g := (1 + a1 + a2) / 4
  ⟨g, 2 * g, g, a1, a2⟩

/-- `z_0, z_1` of the low-pass (40 R141). -/
noncomputable def lowPassPoles (fs flp : ℝ) : List ℂ :=
  sortPoles ([1, 2].map fun k => bilinear fs (prewarp fs flp * prototypePole k))

/-- `SYN_REF.lpf` (40 R141). -/
noncomputable def refLowPass (fs flp : ℝ) : Option (Bank ℝ 2) :=
  match lowPassPoles fs flp with
  | [z0, z1] => some #v[lowPassSection z0, lowPassSection z1]
  | _ => none

/-- The notch section (40 R142). For a quality factor below 1 the rule's formula has points without a
value on its domain: `tan` has none where `w0/(2·Q)` is an odd multiple of π/2, and the quotient has none
where `1 + beta = 0`. There the section takes Lean's values `tan = 0` and `1 / 0 = 0`, so `g = 1` and
`g = 0`. DESIGN CHOICE (log 25): safe for the machine, which does not run SYN_REF. -/
noncomputable def notchSection (fs qn f0 : ℝ) : Biquad ℝ :=
  let w0 := 2 * Real.pi * f0 / fs
  let beta := Real.tan (w0 / (2 * qn))
  let g := 1 / (1 + beta)
  ⟨g, -2 * g * Real.cos w0, g, -2 * g * Real.cos w0, 2 * g - 1⟩

/-- `SYN_REF.notch` (40 R142). -/
noncomputable def refNotch (fs qn f0 : ℝ) : Option (Bank ℝ 1) :=
  if 0 < f0 ∧ f0 < fs / 2 then some #v[notchSection fs qn f0] else none

/-- `SYN_REF` for a sample rate, a low-pass cutoff and a notch quality factor (40 R137, R140 to R142). -/
noncomputable def synRef (fs flp qn : ℝ) : Syn ℝ where
  bpf lo hi := refBandPass fs lo hi
  notch f0 := refNotch fs qn f0
  lpf := refLowPass fs flp

/-- A configuration of the reference instances NUM_REAL and SYN_REF, from its parameters (00 R5, R12).
BUS_BYTE_ORDER, which 00 R5 and R6 leave open, is the default, little: DESIGN CHOICE (log 12), safe. -/
noncomputable def referenceCfg (n : Nat) (fs flp qn gfm : Word) : Cfg ℝ where
  n := n
  fsBits := fs
  flpBits := flp
  qnBits := qn
  gfmBits := gfm
  num := numReal
  syn := synRef (val fs) (val flp) (val qn)

/-- `CFG_REF`: N = 8, FS = 8000, F_LP = 1000, Q_NOTCH = 30, G_FM = 4 (00 R6);
R6 gives no BUS_BYTE_ORDER, and it is little here (log 12). -/
noncomputable def cfgRef : Cfg ℝ :=
  referenceCfg 8 0x45FA0000#32 0x447A0000#32 0x41F00000#32 0x40800000#32

end Sys2Proof.Machine
end

