-- ==== Sys2Proof/Safety.lean ====
section
/-! DEFINITION. What counts as a safe state and a safe step: the invariants the spec states of the
registers, of FilterSpec and of the output port (spec 10 R31, R33, R42, R52; 20 R78; 43 R216; 60 R294). -/

namespace Sys2Proof.Machine

/-- A tag whose three patterns a snapshot could hold (10 R33). -/
def legalTag (t : Tag) : Bool := pos t.center && pos t.bandwidth && nonneg t.notch

/-- No bank: FilterSpec before its first synthesis (10 R50). -/
def noBanks {F : Type} : Banks F := ⟨none, none, none⟩

/-- The block's invariant under a configuration. -/
structure BlockInv {F : Type} (C : Cfg F) (b : Block F) : Prop where
  /-- A register with its valid bit set holds a legal value (10 R30, R33). -/
  written_legal : ∀ i : Fin 6, b.valid.getLsbD i.val = true → legalTuning i (readTuning b.tuning i) = true
  /-- A register without a value stores 0 (10 R31, R32). -/
  unwritten_zero : ∀ i : Fin 6, b.valid.getLsbD i.val = false → readTuning b.tuning i = 0#32
  /-- RUN implies TUNED (10 R31, 44 R249). -/
  run_tuned : b.run = true → b.valid = 0b111111#6
  /-- A valid FilterSpec is the synthesis of its tag, and SYN_MASK is that synthesis's mask (10 R52, 60 R283). -/
  spec_current : b.spec.specValid = true →
    legalTag b.spec.tag = true ∧ b.spec.banks = (synthesize C b.spec.tag).1 ∧
      b.synMask = (synthesize C b.spec.tag).2
  /-- Before the first synthesis the tag is 0, no bank is present and SYN_MASK is 0 (10 R50). -/
  spec_empty : b.spec.specValid = false →
    b.spec.tag = ⟨0#32, 0#32, 0#32⟩ ∧ b.spec.banks = noBanks ∧ b.synMask = 0#3
  /-- CFG_CAUSE is one of its codes, and not "none" while CFGERR is set (60 R282, R284). -/
  cfg_cause : b.cfgCause.toNat ≤ 5 ∧ (b.cfgErr = true → b.cfgCause ≠ 0#4)
  /-- FAULT_CAUSE is one of its codes, and not "none" while FAULT is set (60 R281, R287). -/
  fault_cause : b.faultCause.toNat ≤ 2 ∧ (b.fault = true → b.faultCause ≠ 0#4)

/-- The machine's invariant: the block's, and a presented frame has N finite patterns (20 R78). -/
structure StateInv (s : State) : Prop where
  block : BlockInv Config.cfg s.block
  port : ∀ o, s.outPort = some o → o.length = Config.cfg.n ∧ allFinite o = true

/-- A safe step: it answers a next state that meets the invariant (60 R294). -/
def SafeOutcome (o : Host.Outcome State Fault Refusal) : Prop := ∃ t, o = .next t ∧ StateInv t

/-- The setter of `x[i]` (44 R241 to R246). -/
def setterOf (i : Fin 6) (d : Word) : Instr :=
  match i with
  | 0 => .wrCenter d
  | 1 => .wrBandwidth d
  | 2 => .wrNotch d
  | 3 => .wrVolume d
  | 4 => .wrAntenna d
  | 5 => .wrDemod d

/-- The frame operation of a demodulation mode (30 R105). -/
def frameOf (m : DemodMode) (t : FrameTick) : Instr :=
  match m with
  | .am => .frameAm t
  | .fm => .frameFm t
  | .passthrough => .framePt t

/-- The addresses whose read value an instruction may change, CMD.RESET apart (20 R76): a setter its
register; every host write STATUS, and CAUSE unless it cannot be refused; a frame step STATUS, CAUSE,
the counters, the tag and the coefficient window. -/
def mayChange (i : Instr) (a : Addr) : Bool :=
  match i with
  | .wrCenter _ => a == 0x10#7 || a == 0x09#7 || a == 0x0A#7
  | .wrBandwidth _ => a == 0x11#7 || a == 0x09#7 || a == 0x0A#7
  | .wrNotch _ => a == 0x12#7 || a == 0x09#7 || a == 0x0A#7
  | .wrVolume _ => a == 0x13#7 || a == 0x09#7 || a == 0x0A#7
  | .wrAntenna _ => a == 0x14#7 || a == 0x09#7 || a == 0x0A#7
  | .wrDemod _ => a == 0x15#7 || a == 0x09#7 || a == 0x0A#7
  | .cmdStart | .cmdRsvd _ | .wrRefused _ _ => a == 0x09#7 || a == 0x0A#7
  | .cmdStop | .w1cStatus _ => a == 0x09#7
  | .cmdReset => true
  | .cmdNop | .rd _ | .frameIdle _ => false
  | .frameAm _ | .frameFm _ | .framePt _ =>
    (0x09 ≤ a.toNat && a.toNat ≤ 0x0D) || (0x18 ≤ a.toNat && a.toNat ≤ 0x1A) || 0x40 ≤ a.toNat

/-! ### The cascade sample by sample, the other order of 41 R161 -/

section BySample

variable {F : Type}

/-- One sample through all sections, each with its delay elements: the output sample and the sections
with their new delay elements. -/
def cascadeStep (M : Num F) : List (Biquad F × F × F) → F → F × List (Biquad F × F × F)
  | [], v => (v, [])
  | (sec, s1, s2) :: rest, v =>
    let w := M.add (M.mul sec.b0 v) s1
    let t := M.add (M.sub (M.mul sec.b1 v) (M.mul sec.a1 w)) s2
    let r := cascadeStep M rest w
    (r.1, (sec, t, M.sub (M.mul sec.b2 v) (M.mul sec.a2 w)) :: r.2)

/-- A frame, sample by sample through all sections. -/
def cascadeBySample (M : Num F) : List (Biquad F × F × F) → List F → List F
  | _, [] => []
  | st, v :: vs =>
    let r := cascadeStep M st v
    r.1 :: cascadeBySample M r.2 vs

end BySample

end Sys2Proof.Machine
end

