-- ==== Sys2Proof/Certificates/Slice0/Obligations.lean ====
section
/-! DEFINITION. The statements for the provers. Where a statement quantifies over a configuration `C`, it
holds for every arithmetic and every synthesis, the machine's own (Config.cfg) among them. -/

open Sys2Proof Sys2Proof.Machine

/-! ### Encoding -/

/-- Decoding the encoding of a well-formed instruction gives it back, every operand included (30 R100 to R105). -/
def Obligations.DecodeEncodeRoundTrip : Prop :=
  ∀ i : Instr, i.wellFormed = true → decode (encode i) = .ok i

/-- Encoding what a bus word decodes to gives the word back; of a read, with its ignored data as 0 (30 R100;
the zero is the encoder's choice, log 15). -/
def Obligations.HostWordsReencode : Prop :=
  ∀ tw : TransWord,
    (twIsWrite tw = true → encode (decodeHost tw) = .host tw) ∧
    (twIsWrite tw = false → encode (decodeHost tw) = .host (tw &&& 0x7F00000000#40))

/-- Every word decodes by exactly one row of the table: one that matches it, and every other row that
matches it has fewer mask bits (30 R104). -/
def Obligations.DecoderPicksTheMostSpecificRow : Prop :=
  ∀ tw : TransWord, ∃ r ∈ hostRows, r.mnemonic = mnemonicOf (decodeHost tw) ∧ rowMatches r tw = true ∧
    ∀ r' ∈ hostRows, rowMatches r' tw = true → r' ≠ r → maskWeight r' < maskWeight r

/-- Words of 30 R104 and selectors of 30 R105 decode to the operations they stand for. -/
def Obligations.SpecWordsDecode : Prop :=
  decodeHost 0x9044FA0000#40 = .wrCenter 0x44FA0000#32 ∧
  decodeHost 0x9500000002#40 = .wrDemod 2#32 ∧
  decodeHost 0x8800000001#40 = .cmdStart ∧
  decodeHost 0x8800000004#40 = .cmdRsvd 4#32 ∧
  decodeHost 0x89000000F0#40 = .w1cStatus 0xF0#32 ∧
  decodeHost 0xC000000000#40 = .wrRefused 0x40#7 0#32 ∧
  decodeHost 0x0B00000000#40 = .rd 0x0B#7 ∧
  (∀ (sel : BitVec 3) (t : FrameTick), sel.getLsbD 2 = false → decode (.frame sel t) = .ok (.frameIdle t)) ∧
  (∀ t : FrameTick, decode (.frame 4#3 t) = .ok (.frameAm t) ∧ decode (.frame 5#3 t) = .ok (.frameFm t) ∧
    decode (.frame 6#3 t) = .ok (.framePt t) ∧ decode (.frame 7#3 t) = .error .reservedSelector)

/-- What the decoder gives is well-formed, given a tick with a 16-bit count (30 R104, R105; 20 R77). -/
def Obligations.DecodedInstructionsAreWellFormed : Prop :=
  ∀ (r : Request) (i : Instr), decode r = .ok i →
    (∀ sel t, r = .frame sel t → t.kIn < 2 ^ 16) → i.wellFormed = true

/-! ### The step -/

/-- The step takes the oldest pending event, clears what the ports presented, and runs the decoded
instruction; with nothing pending the state stays (log 1, log 2). -/
def Obligations.StepRunsTheDecodedInstruction : Prop :=
  ∀ (s : State) (rest : List Event),
    (∀ tw, s.inputs = .bus tw :: rest →
      step s = exec (decodeHost tw) { s with inputs := rest, busRead := none, outPort := none }) ∧
    (∀ t i, s.inputs = .tick t :: rest → decode (.frame (selector s.block.run s.block.tuning) t) = .ok i →
      step s = exec i { s with inputs := rest, busRead := none, outPort := none }) ∧
    (s.inputs = [] → step s = .next s)

/-- A placed table word is what the next step runs, on the state it was placed in; for a FRAME row RUN
and DEMOD_MODE may have been set (log 3). -/
def Obligations.PlacedWordRunsNext : Prop :=
  ∀ (s : State) (nbits w : Nat) (i : Instr), decodeTableWord nbits w = some i →
    ∃ s', step (s.withFetchWord nbits w) = exec i s' ∧ s'.inputs = s.inputs ∧ s'.busRead = none ∧
      s'.outPort = none ∧ (8 < nbits → s'.block = s.block) ∧
      (nbits ≤ 8 → s'.block = { s.block with
        run := s'.block.run, tuning := { s.block.tuning with demod := s'.block.tuning.demod } })

/-- RUN gates a frame tick and DEMOD_MODE selects its operation; mode code 3 is refused, the model's form of
an unreachable case (43 R211, R219; log 8). -/
def Obligations.RunAndModeSelectTheFrameOperation : Prop :=
  ∀ (s : State) (t : FrameTick) (rest : List Event), s.inputs = .tick t :: rest →
    (s.block.run = false → step s = .next { s with inputs := rest, busRead := none, outPort := none }) ∧
    (s.block.run = true →
      (s.block.tuning.demod = 0#32 →
        step s = exec (.frameAm t) { s with inputs := rest, busRead := none, outPort := none }) ∧
      (s.block.tuning.demod = 1#32 →
        step s = exec (.frameFm t) { s with inputs := rest, busRead := none, outPort := none }) ∧
      (s.block.tuning.demod = 2#32 →
        step s = exec (.framePt t) { s with inputs := rest, busRead := none, outPort := none }) ∧
      (s.block.tuning.demod = 3#32 → step s = .refused .reservedSelector))

/-! ### Reset -/

/-- The reset input and CMD.RESET have the same effect, and ticks during reset have none (70 R320);
that the pending events stay is the model's (log 10, log 23). -/
def Obligations.HardwareResetEqualsCommandReset : Prop :=
  (∀ (s : State) (during : List FrameTick) (rest : List Event), s.inputs = .hwReset during :: rest →
    step s = .next { block := Block.reset, inputs := rest, busRead := none, outPort := none }) ∧
  (∀ s : State, exec .cmdReset s = .next { s with block := Block.reset })

/-- After reset every word but the identification and configuration reads 0, nothing is valid, and
nothing runs (10 R60). -/
def Obligations.ResetLeavesEverythingZero : Prop :=
  (∀ (F : Type) (C : Cfg F),
    readReg C Block.reset 0x00#7 = 0x414D4642#32 ∧ readReg C Block.reset 0x01#7 = BitVec.ofNat 32 C.n ∧
    readReg C Block.reset 0x02#7 = C.fsBits ∧ readReg C Block.reset 0x03#7 = C.flpBits ∧
    readReg C Block.reset 0x04#7 = C.qnBits ∧ readReg C Block.reset 0x05#7 = C.gfmBits ∧
    ∀ a : Addr, 6 ≤ a.toNat → readReg C Block.reset a = 0#32) ∧
  State.reset.block.valid = 0b000000#6 ∧ State.reset.block.run = false ∧
  State.reset.block.spec.specValid = false ∧ State.reset.block.spec.banks = ⟨none, none, none⟩ ∧
  State.reset.outPort = none

/-! ### Setters -/

/-- The four float setters (44 R241 to R244): their words, and the whole next state, accepted and refused. -/
def Obligations.FloatSettersStoreOrRefuse : Prop :=
  ∀ (s : State) (d : Word),
    decodeHost (0x90#8 ++ d) = .wrCenter d ∧ decodeHost (0x91#8 ++ d) = .wrBandwidth d ∧
    decodeHost (0x92#8 ++ d) = .wrNotch d ∧ decodeHost (0x93#8 ++ d) = .wrVolume d ∧
    exec (.wrCenter d) s = .next (if pos d then
      { s with block := { s.block with
          tuning := { s.block.tuning with center := d }, valid := s.block.valid ||| 0b000001#6 } }
      else { s with block := { s.block with cfgErr := true, cfgCause := 1#4 } }) ∧
    exec (.wrBandwidth d) s = .next (if pos d then
      { s with block := { s.block with
          tuning := { s.block.tuning with bandwidth := d }, valid := s.block.valid ||| 0b000010#6 } }
      else { s with block := { s.block with cfgErr := true, cfgCause := 1#4 } }) ∧
    exec (.wrNotch d) s = .next (if nonneg d then
      { s with block := { s.block with
          tuning := { s.block.tuning with notch := d }, valid := s.block.valid ||| 0b000100#6 } }
      else { s with block := { s.block with cfgErr := true, cfgCause := 1#4 } }) ∧
    exec (.wrVolume d) s = .next (if unitRange d then
      { s with block := { s.block with
          tuning := { s.block.tuning with volume := d }, valid := s.block.valid ||| 0b001000#6 } }
      else { s with block := { s.block with cfgErr := true, cfgCause := 1#4 } })

/-- The two enum setters (44 R245, R246): their words, and the whole next state, accepted and refused. -/
def Obligations.EnumSettersStoreOrRefuse : Prop :=
  ∀ (s : State) (d : Word),
    decodeHost (0x94#8 ++ d) = .wrAntenna d ∧ decodeHost (0x95#8 ++ d) = .wrDemod d ∧
    exec (.wrAntenna d) s = .next (if d < 2#32 then
      { s with block := { s.block with
          tuning := { s.block.tuning with antenna := d }, valid := s.block.valid ||| 0b010000#6 } }
      else { s with block := { s.block with cfgErr := true, cfgCause := 2#4 } }) ∧
    exec (.wrDemod d) s = .next (if d < 3#32 then
      { s with block := { s.block with
          tuning := { s.block.tuning with demod := d }, valid := s.block.valid ||| 0b100000#6 } }
      else { s with block := { s.block with cfgErr := true, cfgCause := 2#4 } })

/-- A refused setter write changes only CFGERR and CFG_CAUSE (44 R247). -/
def Obligations.RefusedSetterKeepsRegisterAndValid : Prop :=
  ∀ (i : Fin 6) (d : Word) (s : State), legalTuning i d = false →
    exec (setterOf i d) s = .next { s with block := { s.block with
      cfgErr := true, cfgCause := if i.val < 4 then 1#4 else 2#4 } }

/-- The setters' tests on patterns are the domains of values, and unsigned pattern order is value order
on non-negative finite patterns (44 R240, which marks that last sentence as general knowledge). -/
def Obligations.LegalityTestsAreValueDomains : Prop :=
  (∀ w : Word, pos w = true ↔ finite w = true ∧ 0 < val w) ∧
  (∀ w : Word, nonneg w = true ↔ finite w = true ∧ 0 ≤ val w) ∧
  (∀ w : Word, unitRange w = true ↔ finite w = true ∧ 0 ≤ val w ∧ val w ≤ 1) ∧
  (∀ u w : Word, finite u = true → finite w = true → u.msb = false → w.msb = false →
    (u ≤ w ↔ val u ≤ val w))

/-- An accepted setter's register reads back what was written and its valid bit reads 1 (10 R31, R32). -/
def Obligations.AcceptedSetterReadsBack : Prop :=
  ∀ (i : Fin 6) (d : Word) (s : State), legalTuning i d = true →
    ∃ t, exec (setterOf i d) s = .next t ∧
      readReg Config.cfg t.block (0x10#7 + BitVec.ofNat 7 i.val) = d ∧
      (readReg Config.cfg t.block 0x09#7).getLsbD (16 + i.val) = true

/-! ### Commands, status clear, refused writes, reads -/

/-- The commands (44 R248 to R251): their words, and the whole next state. That CMD.RESET leaves the
pending events is the model's (log 23). -/
def Obligations.CommandEffects : Prop :=
  decodeHost 0x8800000001#40 = .cmdStart ∧ decodeHost 0x8800000002#40 = .cmdStop ∧
  decodeHost 0x8800000003#40 = .cmdReset ∧
  ∀ s : State,
    exec .cmdNop s = .next s ∧
    exec .cmdStart s = .next (if s.block.valid = 0b111111#6 then
        { s with block := { s.block with run := true } }
      else { s with block := { s.block with cfgErr := true, cfgCause := 4#4 } }) ∧
    exec .cmdStop s = .next { s with block := { s.block with run := false } } ∧
    exec .cmdReset s = .next { s with block := Block.reset } ∧
    (∀ d, exec (.cmdRsvd d) s = .next { s with block := { s.block with cfgErr := true, cfgCause := 3#4 } })

/-- The data of a write to CMD names the command, all 32 bits of it; CMD reads 0 (44 R248). -/
def Obligations.CommandDataNamesTheCommand : Prop :=
  (∀ d : Word, decodeHost (twOf true 0x08#7 d) =
    if d = 0#32 then .cmdNop else if d = 1#32 then .cmdStart else if d = 2#32 then .cmdStop
    else if d = 3#32 then .cmdReset else .cmdRsvd d) ∧
  (∀ (F : Type) (C : Cfg F) (b : Block F), readReg C b 0x08#7 = 0#32)

/-- W1C.STATUS clears the sticky bits its mask names and nothing else (44 R252). -/
def Obligations.StatusClearActsOnNamedBits : Prop :=
  ∀ (m : Word) (s : State), ∃ t, exec (.w1cStatus m) s = .next t ∧
    t = { s with block := { s.block with
      cfgErr := s.block.cfgErr && !m.getLsbD 4, synErr := s.block.synErr && !m.getLsbD 5,
      underrun := s.block.underrun && !m.getLsbD 6, fault := s.block.fault && !m.getLsbD 7 } } ∧
    readReg Config.cfg t.block 0x09#7 = readReg Config.cfg s.block 0x09#7 &&& ~~~(m &&& 0xF0#32) ∧
    ∀ a : Addr, a ≠ 0x09#7 → readReg Config.cfg t.block a = readReg Config.cfg s.block a

/-- A write to any address but 0x08, 0x09 and 0x10 to 0x15 changes only CFGERR and CFG_CAUSE (44 R253). -/
def Obligations.RefusedWriteOnlyReports : Prop :=
  (∀ (a : Addr) (d : Word), a ≠ 0x08#7 → a ≠ 0x09#7 → ¬ (0x10#7 ≤ a ∧ a ≤ 0x15#7) →
    decodeHost (twOf true a d) = .wrRefused a d) ∧
  (∀ (a : Addr) (d : Word) (s : State),
    exec (.wrRefused a d) s = .next { s with block := { s.block with cfgErr := true, cfgCause := 5#4 } })

/-- A read returns the register's word and changes no state of the block; its data bits are ignored
(44 R254, 20 R74). -/
def Obligations.ReadsReturnTheRegisterAndChangeNothing : Prop :=
  (∀ (a : Addr) (d : Word), decodeHost (twOf false a d) = .rd a) ∧
  (∀ (a : Addr) (s : State),
    exec (.rd a) s = .next { s with busRead := some (readReg Config.cfg s.block a) })

/-- The register map's named words, and 0 at every unmapped word and at CMD (20 R76, 10 R44). -/
def Obligations.RegisterMapReadValues : Prop :=
  ∀ (F : Type) (C : Cfg F) (b : Block F),
    readReg C b 0x00#7 = 0x414D4642#32 ∧ readReg C b 0x01#7 = BitVec.ofNat 32 C.n ∧
    readReg C b 0x02#7 = C.fsBits ∧ readReg C b 0x03#7 = C.flpBits ∧
    readReg C b 0x04#7 = C.qnBits ∧ readReg C b 0x05#7 = C.gfmBits ∧
    readReg C b 0x09#7 = statusWord b ∧ readReg C b 0x0A#7 = causeWord b ∧
    readReg C b 0x0B#7 = b.frameCount ∧ readReg C b 0x0C#7 = b.underrunCount ∧
    readReg C b 0x0D#7 = b.faultCount ∧
    readReg C b 0x10#7 = b.tuning.center ∧ readReg C b 0x11#7 = b.tuning.bandwidth ∧
    readReg C b 0x12#7 = b.tuning.notch ∧ readReg C b 0x13#7 = b.tuning.volume ∧
    readReg C b 0x14#7 = b.tuning.antenna ∧ readReg C b 0x15#7 = b.tuning.demod ∧
    readReg C b 0x18#7 = b.spec.tag.center ∧ readReg C b 0x19#7 = b.spec.tag.bandwidth ∧
    readReg C b 0x1A#7 = b.spec.tag.notch ∧
    ∀ a : Addr, (a.toNat ∈ [0x06, 0x07, 0x08, 0x0E, 0x0F, 0x16, 0x17] ∨
        (0x1B ≤ a.toNat ∧ a.toNat ≤ 0x3F) ∨ (0x54 ≤ a.toNat ∧ a.toNat ≤ 0x57) ∨
        (0x5D ≤ a.toNat ∧ a.toNat ≤ 0x5F) ∨ 0x6A ≤ a.toNat) →
      readReg C b a = 0#32

/-- The coefficient window: coefficient c of section s of a present bank through `to_b32`, 0 for an
absent bank (10 R51, 20 R76). -/
def Obligations.CoefficientWindowReadValues : Prop :=
  ∀ (F : Type) (C : Cfg F) (b : Block F) (j : Fin 5),
    (∀ i : Fin 4, readReg C b (BitVec.ofNat 7 (0x40 + 5 * i.val + j.val)) =
      match b.spec.banks.bpf with
      | none => 0#32
      | some bank => C.num.toB32 (match j with
        | 0 => bank[i].b0 | 1 => bank[i].b1 | 2 => bank[i].b2 | 3 => bank[i].a1 | 4 => bank[i].a2)) ∧
    (readReg C b (BitVec.ofNat 7 (0x58 + j.val)) =
      match b.spec.banks.notch with
      | none => 0#32
      | some bank => C.num.toB32 (match j with
        | 0 => bank[0].b0 | 1 => bank[0].b1 | 2 => bank[0].b2 | 3 => bank[0].a1 | 4 => bank[0].a2)) ∧
    (∀ i : Fin 2, readReg C b (BitVec.ofNat 7 (0x60 + 5 * i.val + j.val)) =
      match b.spec.banks.lpf with
      | none => 0#32
      | some bank => C.num.toB32 (match j with
        | 0 => bank[i].b0 | 1 => bank[i].b1 | 2 => bank[i].b2 | 3 => bank[i].a1 | 4 => bank[i].a2))

/-- STATUS and CAUSE bit by bit (10 R41, R42). -/
def Obligations.StatusAndCauseLayout : Prop :=
  ∀ (F : Type) (b : Block F),
    (statusWord b).getLsbD 0 = b.run ∧
    (statusWord b).getLsbD 1 = decide (b.valid = 0b111111#6) ∧
    (statusWord b).getLsbD 2 = b.spec.specValid ∧
    (statusWord b).getLsbD 3 = false ∧
    (statusWord b).getLsbD 4 = b.cfgErr ∧ (statusWord b).getLsbD 5 = b.synErr ∧
    (statusWord b).getLsbD 6 = b.underrun ∧ (statusWord b).getLsbD 7 = b.fault ∧
    (statusWord b).getLsbD 8 = (b.spec.specValid && b.spec.banks.bpf.isSome) ∧
    (statusWord b).getLsbD 9 = (b.spec.specValid && b.spec.banks.notch.isSome) ∧
    (statusWord b).getLsbD 10 = (b.spec.specValid && b.spec.banks.lpf.isSome) ∧
    (statusWord b).extractLsb' 11 5 = 0#5 ∧ (statusWord b).extractLsb' 16 6 = b.valid ∧
    (statusWord b).extractLsb' 22 10 = 0#10 ∧
    (causeWord b).extractLsb' 0 4 = b.faultCause ∧ (causeWord b).extractLsb' 4 4 = 0#4 ∧
    (causeWord b).extractLsb' 8 4 = b.cfgCause ∧ (causeWord b).extractLsb' 12 4 = 0#4 ∧
    (causeWord b).extractLsb' 16 3 = b.synMask ∧ (causeWord b).extractLsb' 19 13 = 0#13

/-! ### Events -/

/-- What raising each event writes: its sticky bit, its cause field, its counter modulo 2^32, nothing
else (60 R280 to R287). -/
def Obligations.RaisedEventsRecordExactlyTheirFields : Prop :=
  ∀ (F : Type) (b : Block F),
    (∀ c, raiseEvent (.configError c) b = { b with
      cfgErr := true
      cfgCause := match c with
        | .illegalValue => 1#4 | .reservedCode => 2#4 | .reservedCommand => 3#4
        | .startRefused => 4#4 | .badWriteAddress => 5#4 }) ∧
    (∀ m, raiseEvent (.synthesisError m) b = { b with synErr := true, synMask := m }) ∧
    raiseEvent .underrun b = { b with underrun := true, underrunCount := b.underrunCount + 1 } ∧
    (∀ c, raiseEvent (.frameFault c) b = { b with
      fault := true
      faultCause := match c with
        | .inputNonfinite => 1#4 | .outputNonfinite => 2#4
      faultCount := b.faultCount + 1 })

/-! ### The frame step: completion, faults, emission -/

/-- A frame tick while stopped does nothing, and is what RUN = 0 selects (43 R211). -/
def Obligations.IdleFrameDoesNothing : Prop :=
  ∀ (t : FrameTick) (s : State), exec (.frameIdle t) s = .next s ∧
    (s.block.run = false → decode (.frame (selector s.block.run s.block.tuning) t) = .ok (.frameIdle t))

/-- FRAME.AM on finite input: the AM sequence with the synthesis of its own snapshot; if a result
pattern is not finite, silence and the output fault (42 R190, 43 R210). -/
def Obligations.AmFrameCompletes : Prop :=
  ∀ (t : FrameTick) (s : State), allFinite (paddedFrame Config.cfg.n t) = true →
    let C := Config.cfg
    let M := C.num
    let x := s.block.tuning
    let b1 := if t.kIn < C.n then
        { s.block with underrun := true, underrunCount := s.block.underrunCount + 1 } else s.block
    let b2 := synth C ⟨x.center, x.bandwidth, x.notch⟩ b1
    let xs := (paddedFrame C.n t).map M.ofB32
    let r := rectify M (mix M xs (carrier C (M.ofB32 x.center)))
    let ys := scaleVolume M (M.ofB32 x.volume) (zeroPhase M b2.spec.banks.lpf r)
    let o := ys.map M.toB32
    exec (.frameAm t) s = .next { s with
      block := if allFinite o then { b2 with frameCount := b2.frameCount + 1 }
        else { b2 with fault := true, faultCause := 2#4, faultCount := b2.faultCount + 1,
                       frameCount := b2.frameCount + 1 }
      outPort := some (if allFinite o then o else List.replicate C.n 0#32) }

/-- FRAME.FM on finite input (42 R191, 43 R210). -/
def Obligations.FmFrameCompletes : Prop :=
  ∀ (t : FrameTick) (s : State), allFinite (paddedFrame Config.cfg.n t) = true →
    let C := Config.cfg
    let M := C.num
    let x := s.block.tuning
    let b1 := if t.kIn < C.n then
        { s.block with underrun := true, underrunCount := s.block.underrunCount + 1 } else s.block
    let b2 := synth C ⟨x.center, x.bandwidth, x.notch⟩ b1
    let xs := (paddedFrame C.n t).map M.ofB32
    let g := gain C (rectify M (diff M (zeroPhase M b2.spec.banks.bpf xs)))
    let ys := scaleVolume M (M.ofB32 x.volume) (zeroPhase M b2.spec.banks.lpf g)
    let o := ys.map M.toB32
    exec (.frameFm t) s = .next { s with
      block := if allFinite o then { b2 with frameCount := b2.frameCount + 1 }
        else { b2 with fault := true, faultCause := 2#4, faultCount := b2.faultCount + 1,
                       frameCount := b2.frameCount + 1 }
      outPort := some (if allFinite o then o else List.replicate C.n 0#32) }

/-- FRAME.PT on finite input: band-pass, then notch (42 R192, 43 R210). -/
def Obligations.PtFrameCompletes : Prop :=
  ∀ (t : FrameTick) (s : State), allFinite (paddedFrame Config.cfg.n t) = true →
    let C := Config.cfg
    let M := C.num
    let x := s.block.tuning
    let b1 := if t.kIn < C.n then
        { s.block with underrun := true, underrunCount := s.block.underrunCount + 1 } else s.block
    let b2 := synth C ⟨x.center, x.bandwidth, x.notch⟩ b1
    let xs := (paddedFrame C.n t).map M.ofB32
    let f := zeroPhase M b2.spec.banks.notch (zeroPhase M b2.spec.banks.bpf xs)
    let o := (scaleVolume M (M.ofB32 x.volume) f).map M.toB32
    exec (.framePt t) s = .next { s with
      block := if allFinite o then { b2 with frameCount := b2.frameCount + 1 }
        else { b2 with fault := true, faultCause := 2#4, faultCount := b2.faultCount + 1,
                       frameCount := b2.frameCount + 1 }
      outPort := some (if allFinite o then o else List.replicate C.n 0#32) }

/-- A non-finite consumed sample: the underrun is still counted, nothing is synthesized, the frame is
silence, FAULT_CAUSE is 1 (43 R214, R215, R217; 60 R291). -/
def Obligations.InputFaultGivesSilence : Prop :=
  ∀ (m : DemodMode) (t : FrameTick) (s : State), allFinite (paddedFrame Config.cfg.n t) = false →
    let b1 := if t.kIn < Config.cfg.n then
        { s.block with underrun := true, underrunCount := s.block.underrunCount + 1 } else s.block
    exec (frameOf m t) s = .next { s with
      block := { b1 with fault := true, faultCause := 1#4, faultCount := b1.faultCount + 1,
                         frameCount := b1.frameCount + 1 }
      outPort := some (List.replicate Config.cfg.n 0#32) }

/-- A non-finite result pattern: synthesis stands, the frame is silence, FAULT_CAUSE is 2 (43 R216, R217). -/
def Obligations.OutputFaultGivesSilence : Prop :=
  ∀ (F : Type) (C : Cfg F) (m : DemodMode) (t : FrameTick) (b : Block F),
    allFinite (paddedFrame C.n t) = true →
    let b2 := synth C (tagOf b.tuning) (noteUnderrun C t b)
    allFinite (framePatterns C m b.tuning b2.spec.banks (paddedFrame C.n t)) = false →
    frameStep C m t b =
      ({ b2 with fault := true, faultCause := 2#4, faultCount := b2.faultCount + 1,
                 frameCount := b2.frameCount + 1 }, List.replicate C.n 0#32)

/-- Every frame step emits exactly one frame of N finite patterns and counts it, on every path
(43 R218, 20 R78). -/
def Obligations.EveryFrameStepEmitsNFinitePatterns : Prop :=
  ∀ (m : DemodMode) (t : FrameTick) (s : State), ∃ u o, exec (frameOf m t) s = .next u ∧
    u.outPort = some o ∧ o.length = Config.cfg.n ∧ allFinite o = true ∧
    u.block.frameCount = s.block.frameCount + 1

/-- A frame step counts an underrun exactly when fewer than N samples are available (60 R286). -/
def Obligations.UnderrunCountedExactlyWhenShort : Prop :=
  ∀ (m : DemodMode) (t : FrameTick) (s : State), ∃ u, exec (frameOf m t) s = .next u ∧
    (t.kIn < Config.cfg.n →
      u.block.underrun = true ∧ u.block.underrunCount = s.block.underrunCount + 1) ∧
    (Config.cfg.n ≤ t.kIn →
      u.block.underrun = s.block.underrun ∧ u.block.underrunCount = s.block.underrunCount)

/-- The padded frame position by position: the first min(k_in, N) samples, then silence (43 R213). -/
def Obligations.PaddingIsTailSilence : Prop :=
  ∀ (n : Nat) (t : FrameTick) (i : Nat),
    (paddedFrame n t)[i]? =
      if i < min t.kIn n then t.samples[i]? else if i < n then some 0#32 else none

/-- Samples beyond N are not seen: two ticks with the same first N samples have the same effect (20 R77). -/
def Obligations.SamplesBeyondNAreNotSeen : Prop :=
  ∀ (m : DemodMode) (t t' : FrameTick) (s : State),
    t.samples.take Config.cfg.n = t'.samples.take Config.cfg.n →
    exec (frameOf m t) s = exec (frameOf m t') s

/-! ### Frames: what each operation leaves alone -/

/-- Every register-map word that an operation does not name reads as before (20 R76). -/
def Obligations.RegistersOutsideTheEffectKeepTheirValue : Prop :=
  ∀ (i : Instr) (s t : State) (a : Addr), exec i s = .next t → mayChange i a = false →
    readReg Config.cfg t.block a = readReg Config.cfg s.block a

/-- A frame step leaves the tuning registers, VALID, RUN, CFGERR, CFG_CAUSE, the bus and the pending
events alone (10 R32, 60 R294). -/
def Obligations.FrameStepKeepsControlState : Prop :=
  ∀ (m : DemodMode) (t : FrameTick) (s : State), ∃ u, exec (frameOf m t) s = .next u ∧
    u.block.tuning = s.block.tuning ∧ u.block.valid = s.block.valid ∧ u.block.run = s.block.run ∧
    u.block.cfgErr = s.block.cfgErr ∧ u.block.cfgCause = s.block.cfgCause ∧
    u.busRead = s.busRead ∧ u.inputs = s.inputs

/-- A host operation other than CMD.RESET leaves FilterSpec, SYN_MASK, FAULT_CAUSE, the counters, the
output port and the pending events alone; only a read answers on the bus (10 R51, 60 R298). -/
def Obligations.HostOperationsKeepEngineState : Prop :=
  ∀ (tw : TransWord) (s t : State), decodeHost tw ≠ .cmdReset → exec (decodeHost tw) s = .next t →
    t.block.spec = s.block.spec ∧ t.block.synMask = s.block.synMask ∧
    t.block.faultCause = s.block.faultCause ∧ t.block.frameCount = s.block.frameCount ∧
    t.block.underrunCount = s.block.underrunCount ∧ t.block.faultCount = s.block.faultCount ∧
    t.outPort = s.outPort ∧ t.inputs = s.inputs ∧ (twIsWrite tw = true → t.busRead = s.busRead)

/-- RUN is cleared only by STOP and RESET and set only by an accepted START (10 R40, 60 R294). -/
def Obligations.RunChangesOnlyByItsCommands : Prop :=
  ∀ (i : Instr) (s t : State), exec i s = .next t →
    (s.block.run = true → t.block.run = false → i = .cmdStop ∨ i = .cmdReset) ∧
    (s.block.run = false → t.block.run = true → i = .cmdStart ∧ s.block.valid = 0b111111#6)

/-- A tuning register changes only by an accepted write of its own setter, or by reset (10 R32, R33). -/
def Obligations.TuningChangesOnlyByItsSetter : Prop :=
  ∀ (i : Instr) (s t : State) (j : Fin 6), exec i s = .next t → i ≠ .cmdReset →
    readTuning t.block.tuning j ≠ readTuning s.block.tuning j →
    i = setterOf j (readTuning t.block.tuning j) ∧ legalTuning j (readTuning t.block.tuning j) = true

/-! ### Synthesis -/

/-- The stage rules of a synthesis (40 R130 to R134, R136) and its mask (60 R283): cutoffs, bypass,
finiteness check, one error bit per failed stage. -/
def Obligations.SynthesisFollowsTheStageRules : Prop :=
  ∀ (F : Type) (C : Cfg F) (tag : Tag),
    let M := C.num
    let fc := M.ofB32 tag.center
    let h := M.mul C.half (M.ofB32 tag.bandwidth)
    let fn := M.ofB32 tag.notch
    let lo := M.max C.one (M.sub fc h)
    let hi := M.min (M.sub C.nyqf C.one) (M.add fc h)
    let r := synthesize C tag
    r.1.bpf = (if M.le hi lo then none else (C.syn.bpf lo hi).filter (bankFinite M)) ∧
    r.1.notch = (if M.lt C.zero fn && M.lt fn C.nyqf then (C.syn.notch fn).filter (bankFinite M) else none) ∧
    r.1.lpf = C.syn.lpf.filter (bankFinite M) ∧
    r.2.getLsbD 0 = r.1.bpf.isNone ∧
    r.2.getLsbD 1 = (M.lt C.zero fn && r.1.notch.isNone) ∧
    r.2.getLsbD 2 = r.1.lpf.isNone

/-- A frame step filters with the synthesis of its own snapshot (10 R52, which the spec marks as derived
from R130 and R212), from any state that meets the invariant: what SYNTH leaves, the emitted frame
(silence where a check fails), and the FilterSpec afterwards. -/
def Obligations.FrameUsesTheBanksOfItsSnapshot : Prop :=
  ∀ (F : Type) (C : Cfg F) (m : DemodMode) (t : FrameTick) (b : Block F), BlockInv C b →
    let b2 := synth C (tagOf b.tuning) (noteUnderrun C t b)
    let banks := (synthesize C (tagOf b.tuning)).1
    let p := paddedFrame C.n t
    let o := framePatterns C m b.tuning banks p
    b2.spec = ⟨true, tagOf b.tuning, banks⟩ ∧
    (frameStep C m t b).2 = (if allFinite p && allFinite o then o else List.replicate C.n 0#32) ∧
    (allFinite p = true → (frameStep C m t b).1.spec = ⟨true, tagOf b.tuning, banks⟩) ∧
    (allFinite p = false → (frameStep C m t b).1.spec = b.spec)

/-- A synthesis error is recorded exactly once per parameter change (60 R283, R285, 40 R130, R135). With
FilterSpec current, a frame step neither writes FilterSpec or SYN_MASK nor raises SYNERR. With FilterSpec
not current, SYNTH writes FilterSpec and SYN_MASK, sets SYNERR exactly when the mask is not 0, and writes
nothing else; and a frame step whose input check passes leaves exactly that of it. With the input check
failed a frame step synthesizes nothing (43 R215). -/
def Obligations.SynthesisErrorOncePerChange : Prop :=
  ∀ (F : Type) (C : Cfg F) (b : Block F),
    (∀ tag : Tag, b.spec.specValid = true → b.spec.tag = tag → synth C tag b = b) ∧
    (∀ tag : Tag, b.spec.specValid = false ∨ b.spec.tag ≠ tag →
      synth C tag b = { b with
        spec := ⟨true, tag, (synthesize C tag).1⟩
        synMask := (synthesize C tag).2
        synErr := b.synErr || decide ((synthesize C tag).2 ≠ 0#3) }) ∧
    ∀ (m : DemodMode) (t : FrameTick),
      (b.spec.specValid = true → b.spec.tag = tagOf b.tuning →
        (frameStep C m t b).1.synErr = b.synErr ∧ (frameStep C m t b).1.synMask = b.synMask ∧
          (frameStep C m t b).1.spec = b.spec) ∧
      (b.spec.specValid = false ∨ b.spec.tag ≠ tagOf b.tuning → allFinite (paddedFrame C.n t) = true →
        (frameStep C m t b).1.synErr = (b.synErr || decide ((synthesize C (tagOf b.tuning)).2 ≠ 0#3)) ∧
          (frameStep C m t b).1.synMask = (synthesize C (tagOf b.tuning)).2 ∧
          (frameStep C m t b).1.spec = ⟨true, tagOf b.tuning, (synthesize C (tagOf b.tuning)).1⟩) ∧
      (allFinite (paddedFrame C.n t) = false →
        (frameStep C m t b).1.synErr = b.synErr ∧ (frameStep C m t b).1.synMask = b.synMask ∧
          (frameStep C m t b).1.spec = b.spec)

/-- Always recomputing gives the frame that the cached FilterSpec gives (40 R135, which the spec marks as
derived from R130 and R137). -/
def Obligations.LazyAndEagerSynthesisEmitTheSameFrame : Prop :=
  ∀ (F : Type) (C : Cfg F) (m : DemodMode) (t : FrameTick) (b : Block F), BlockInv C b →
    (frameStep C m t b).2 =
      (frameStep C m t { b with spec := { b.spec with specValid := false } }).2

/-- CLAMP over the reals: the cutoffs of the source's formula, within 1 Hz and FS/2 − 1 (40 R131). -/
def Obligations.ClampedCutoffsStayInBand : Prop :=
  ∀ (n : Nat) (fs flp qn gfm : Word) (fc bw : ℝ),
    let C := referenceCfg n fs flp qn gfm
    clamp C fc bw = (max 1 (fc - bw / 2), min ((val fs : ℝ) / 2 - 1) (fc + bw / 2)) ∧
      1 ≤ (clamp C fc bw).1 ∧ (clamp C fc bw).2 ≤ (val fs : ℝ) / 2 - 1

/-! ### Demodulation and filtering -/

/-- PASSTHROUGH with both stages bypassed and volume 1.0 emits its padded input: value for value, and bit
for bit wherever the value is not zero (42 R188, R192, 41 R163), under any admissible configuration in
which the pattern of 1.0 stands for ONE, which R188 uses and NP1 to NP8 do not say (log 6). -/
def Obligations.BypassedPassThroughAtUnitVolumeIsIdentity : Prop :=
  ∀ (F : Type) (C : Cfg F) (t : FrameTick) (b : Block F), C.Admissible →
    C.num.ofB32 0x3F800000#32 = C.one → allFinite (paddedFrame C.n t) = true →
    b.spec.specValid = true → b.spec.tag = tagOf b.tuning →
    b.spec.banks.bpf = none → b.spec.banks.notch = none → b.tuning.volume = 0x3F800000#32 →
    (frameStep C .passthrough t b).1.fault = b.fault ∧
    (frameStep C .passthrough t b).2.length = C.n ∧
    ∀ (i : Nat) (w : Word), (paddedFrame C.n t)[i]? = some w →
      ∃ v, (frameStep C .passthrough t b).2[i]? = some v ∧ val v = val w ∧ (val w ≠ 0 → v = w)

/-- An empty tick in FM or PASSTHROUGH emits zeros without a fault, and counts an underrun (42 R191,
R192; 41 R162): of the machine from any state that meets the invariant, and of the frame step under any
admissible configuration (log 5). -/
def Obligations.EmptyTickEmitsZerosInFmAndPt : Prop :=
  (∀ (s : State), StateInv s → finite s.block.tuning.volume = true →
    (∃ u o, exec (.frameFm ⟨[]⟩) s = .next u ∧ u.outPort = some o ∧ o.length = Config.cfg.n ∧
      (∀ w ∈ o, isZero w = true) ∧ u.block.fault = s.block.fault ∧
      u.block.underrunCount = s.block.underrunCount + 1) ∧
    (∃ u o, exec (.framePt ⟨[]⟩) s = .next u ∧ u.outPort = some o ∧ o.length = Config.cfg.n ∧
      (∀ w ∈ o, isZero w = true) ∧ u.block.fault = s.block.fault ∧
      u.block.underrunCount = s.block.underrunCount + 1)) ∧
  ∀ (F : Type) (C : Cfg F) (m : DemodMode) (b : Block F), C.Admissible → BlockInv C b →
    finite b.tuning.volume = true → m ≠ .am →
    (∀ w ∈ (frameStep C m ⟨[]⟩ b).2, isZero w = true) ∧ (frameStep C m ⟨[]⟩ b).1.fault = b.fault ∧
      (frameStep C m ⟨[]⟩ b).1.underrunCount = b.underrunCount + 1

/-- An empty tick in AM emits zeros, under any admissible configuration whose carrier at this frequency is
finite (42 R190; rests on log 5). -/
def Obligations.EmptyTickEmitsZerosInAm : Prop :=
  ∀ (F : Type) (C : Cfg F) (b : Block F), C.Admissible → BlockInv C b → finite b.tuning.volume = true →
    (∀ c ∈ carrier C (C.num.ofB32 b.tuning.center), C.num.isFinite c = true) →
    (∀ w ∈ (frameStep C .am ⟨[]⟩ b).2, isZero w = true) ∧ (frameStep C .am ⟨[]⟩ b).1.fault = b.fault

/-- Zero-phase filtering of zeros gives zeros, for every lawful arithmetic and every finite bank (41
R160, R162; the zeros are a set of the instance, log 5). -/
def Obligations.ZeroPhaseOfZerosIsZeros : Prop :=
  ∀ (F : Type) (M : Num F) (Z : F → Prop) (k : Nat) (bank : Option (Bank F k)) (v : List F),
    M.Lawful Z → (∀ c, bank = some c → bankFinite M c = true) → (∀ x ∈ v, Z x) →
    ∀ y ∈ zeroPhase M bank v, Z y

/-- The carrier is ONE at index 0 of every frame: the phase restarts (42 R181; rests on log 5). -/
def Obligations.CarrierStartsAtOne : Prop :=
  ∀ (F : Type) (C : Cfg F) (fc : F), C.Admissible →
    C.num.isFinite (C.num.mul C.num.twoPi fc) = true → (carrier C fc)[0]? = some C.one

/-- Section by section and sample by sample give identical results in any arithmetic (41 R161, a sentence the
spec marks as derived). -/
def Obligations.CascadeOrderDoesNotMatter : Prop :=
  ∀ (F : Type) (M : Num F) (k : Nat) (bank : Bank F k) (v : List F),
    cascade M bank v = cascadeBySample M (bank.toList.map fun s => (s, M.ofNat 0, M.ofNat 0)) v

/-- Over the reals the zero-phase filter is a symmetric, positive semi-definite map of the frame (41 R162). -/
def Obligations.ZeroPhaseIsSymmetricPositive : Prop :=
  ∀ (k : Nat) (c : Bank ℝ k) (u v : List ℝ), u.length = v.length →
    (List.zipWith (· * ·) (zeroPhase numReal (some c) u) v).sum =
      (List.zipWith (· * ·) u (zeroPhase numReal (some c) v)).sum ∧
    0 ≤ (List.zipWith (· * ·) u (zeroPhase numReal (some c) u)).sum

/-- ANTENNA_MODE has no effect on a frame step but to stay as it is (10 R34). -/
def Obligations.AntennaModeHasNoEffect : Prop :=
  ∀ (F : Type) (C : Cfg F) (m : DemodMode) (t : FrameTick) (b : Block F) (w : Word),
    frameStep C m t { b with tuning := { b.tuning with antenna := w } } =
      ({ (frameStep C m t b).1 with tuning := { b.tuning with antenna := w } }, (frameStep C m t b).2)

/-- Which tuning fields each mode's output depends on (42 R195, which the spec marks as derived): two
blocks that agree on them emit the same frame for the same tick. -/
def Obligations.OutputDependsOnlyOnTheModesFields : Prop :=
  ∀ (F : Type) (C : Cfg F) (t : FrameTick) (b b' : Block F), BlockInv C b → BlockInv C b' →
    b.tuning.center = b'.tuning.center → b.tuning.volume = b'.tuning.volume →
    (frameStep C .am t b).2 = (frameStep C .am t b').2 ∧
    (b.tuning.bandwidth = b'.tuning.bandwidth →
      (frameStep C .fm t b).2 = (frameStep C .fm t b').2 ∧
      (b.tuning.notch = b'.tuning.notch →
        (frameStep C .passthrough t b).2 = (frameStep C .passthrough t b').2))

/-! ### The reference instances -/

/-- SYN_REF's band-pass on its domain: a bank, with zeros at ±1 (SP3), stable (SP6) (40 R138, R140;
that four roots are in the upper half plane is what makes it total, log 20). -/
def Obligations.ReferenceBandPassIsStableWithZerosAtTheEnds : Prop :=
  ∀ fs lo hi : ℝ, 0 < lo → lo < hi → hi < fs / 2 →
    ∃ c, refBandPass fs lo hi = some c ∧ ∀ s ∈ c.toList,
      s.b1 = 0 ∧ s.b2 = -s.b0 ∧ |s.a2| < 1 ∧ |s.a1| < 1 + s.a2

/-- SYN_REF's low-pass: a bank of unit gain at 0 Hz (SP4), stable (SP6); and its notch: the notch shape,
a numerator 0 at `f0` and one equal to the denominator at 0 Hz and FS/2 (SP5) for every quality factor
above 0, and stable (SP6) below Q·FS/2, so on the whole domain for Q ≥ 1 (40 R138, R141, R142). At the points
where R142's formula has no value for a Q below 1 the shape is that of the model's section (log 25). -/
def Obligations.ReferenceLowPassAndNotchShape : Prop :=
  (∀ fs flp : ℝ, 0 < flp → flp < fs / 2 →
    ∃ c, refLowPass fs flp = some c ∧ ∀ s ∈ c.toList,
      s.b1 = 2 * s.b0 ∧ s.b2 = s.b0 ∧ 4 * s.b0 = 1 + s.a1 + s.a2 ∧ |s.a2| < 1 ∧ |s.a1| < 1 + s.a2) ∧
  (∀ fs qn f0 : ℝ, 0 < qn → 0 < f0 → f0 < fs / 2 →
    ∃ c, refNotch fs qn f0 = some c ∧ ∀ s ∈ c.toList,
      s.b2 = s.b0 ∧ s.b1 = s.a1 ∧ s.a1 = -2 * s.b0 * Real.cos (2 * Real.pi * f0 / fs) ∧
      s.a2 = 2 * s.b0 - 1 ∧
      s.b0 + s.b1 + s.b2 = 1 + s.a1 + s.a2 ∧ s.b0 - s.b1 + s.b2 = 1 - s.a1 + s.a2 ∧
      (∀ z : ℂ, z = Complex.exp (Complex.I * (2 * Real.pi * f0 / fs : ℝ)) →
        s.b0 * z ^ 2 + s.b1 * z + s.b2 = 0) ∧
      (f0 < qn * (fs / 2) → |s.a2| < 1 ∧ |s.a1| < 1 + s.a2))

/-- NUM_REAL and SYN_REF form an admissible configuration with every choice of parameters that R5 allows,
and so CFG_REF does (00 R5, R6, R11, R12; 40 R138). Admissible is R5, NP1 to NP8 with the real number 0 as
the zero (log 5: R11's own zeros are not NUM_REAL's) and SP7 (log 21); that the notch gives a bank for a
quality factor below 1 is the model's (log 25). -/
def Obligations.ReferenceConfigurationIsAdmissible : Prop :=
  cfgRef.Admissible ∧ numReal.Lawful (fun x => x = 0) ∧
  ∀ (n : Nat) (fs flp qn gfm : Word), 1 ≤ n ∧ n ≤ 65535 →
    finite fs = true ∧ 4 < val fs → finite flp = true ∧ 0 < val flp ∧ val flp < val fs / 2 →
    finite qn = true ∧ 0 < val qn → finite gfm = true ∧ 0 < val gfm →
    (referenceCfg n fs flp qn gfm).Admissible

/-- NUM_IEEE of any format at least as wide as binary32 has NUM's properties, with its two zeros as the
zeros, given a cosine that maps them to ONE; and NUM_IEEE of binary32 has them as R11 writes them, every
value with a zero pattern being a zero (00 R11, R12; log 5, log 19, log 26). -/
def Obligations.IeeeArithmeticIsLawful : Prop :=
  (∀ (f : IeeeFormat) (cosine : IeeeValue f → IeeeValue f) (twoPi : IeeeValue f), ieeeWideEnough f →
    (∀ z, ieeeIsZero z = true → cosine z = (numIeee f cosine twoPi).ofNat 1) →
    (numIeee f cosine twoPi).Lawful fun z => ieeeIsZero z = true) ∧
  ∀ (cosine : IeeeValue ⟨8, 23⟩ → IeeeValue ⟨8, 23⟩) (twoPi : IeeeValue ⟨8, 23⟩),
    (∀ z, ieeeIsZero z = true → cosine z = (numIeee ⟨8, 23⟩ cosine twoPi).ofNat 1) →
    (numIeee ⟨8, 23⟩ cosine twoPi).LawfulAsWritten

/-! ### The invariant -/

/-- The state after reset meets the invariant. -/
def Obligations.InvariantHoldsAtReset : Prop := StateInv State.reset

/-- Every step keeps the invariant (10 R33, R52; 20 R78). -/
def Obligations.StepKeepsTheInvariant : Prop :=
  ∀ s t : State, StateInv s → step s = .next t → StateInv t

/-- From every state that meets the invariant, whatever events are pending, the step answers a next
state: no event stops the block (60 R294). -/
def Obligations.InvariantStatesNeverStop : Prop :=
  ∀ s : State, StateInv s → ∃ t, step s = .next t
end

