-- ==== Sys2Proof/Laws/Binary32.lean ====
section
/-! SUPPORT. The value of a pattern is the one of the rule's formulas, for normal and for subnormal
patterns (spec 00 R8). -/

namespace Sys2Proof.Machine

/-- `val(w)` for `1 ≤ e ≤ 254` is `(-1)^s · 2^(e−127) · (1 + m/2^23)` (00 R8). -/
theorem val_normal (w : Word) (h : expField w ≠ 0#8) :
    val w = (if w.msb then -1 else 1) * (2 : ℚ) ^ (((expField w).toNat : ℤ) - 127) *
      (1 + ((fracField w).toNat : ℚ) / 2 ^ 23) := by
  have he : 1 ≤ (expField w).toNat := by
    rcases Nat.eq_zero_or_pos (expField w).toNat with h0 | h0
    · exact absurd (BitVec.eq_of_toNat_eq (by simpa using h0)) h
    · exact h0
  obtain ⟨k, hk⟩ := Nat.exists_eq_add_of_le he
  have hz : (((expField w).toNat : ℤ) - 127) = (k : ℤ) - 126 := by rw [hk]; push_cast; ring
  rw [hz, zpow_sub₀ (by norm_num)]
  simp only [val, magUnits, h, if_false, hk, Nat.add_sub_cancel_left, zpow_natCast]
  push_cast
  generalize (if w.msb = true then (-1 : ℚ) else 1) = sign
  norm_num
  ring

/-- `val(w)` for `e = 0` is `(-1)^s · 2^(−126) · (m/2^23)` (00 R8). -/
theorem val_subnormal (w : Word) (h : expField w = 0#8) :
    val w = (if w.msb then -1 else 1) * (2 : ℚ) ^ (-126 : ℤ) *
      (((fracField w).toNat : ℚ) / 2 ^ 23) := by
  have h126 : (2 : ℚ) ^ (-126 : ℤ) = 1 / 2 ^ 126 := by
    rw [zpow_neg, one_div]; norm_cast
  simp only [val, magUnits, h, if_true, h126]
  ring

end Sys2Proof.Machine
end

