-- ==== Sys2Proof/Laws/State.lean ====
section
/-! SUPPORT. What each update of State, Block and Tuning does to each field, once: every lemma is true by
unfolding that one update, so that no later proof unfolds a record update. -/

namespace Sys2Proof.Machine

/-! ### The state's own updates -/

@[simp] theorem onBlock_block (f : Block Value → Block Value) (s : State) : (onBlock f s).block = f s.block := rfl
@[simp] theorem onBlock_inputs (f : Block Value → Block Value) (s : State) : (onBlock f s).inputs = s.inputs := rfl
@[simp] theorem onBlock_busRead (f : Block Value → Block Value) (s : State) : (onBlock f s).busRead = s.busRead := rfl
@[simp] theorem onBlock_outPort (f : Block Value → Block Value) (s : State) : (onBlock f s).outPort = s.outPort := rfl
@[simp] theorem respond_block (w : Word) (s : State) : (respond w s).block = s.block := rfl
@[simp] theorem respond_inputs (w : Word) (s : State) : (respond w s).inputs = s.inputs := rfl
@[simp] theorem respond_busRead (w : Word) (s : State) : (respond w s).busRead = some w := rfl
@[simp] theorem respond_outPort (w : Word) (s : State) : (respond w s).outPort = s.outPort := rfl
@[simp] theorem present_block (r : Block Value × List Word) (s : State) : (present r s).block = r.1 := rfl
@[simp] theorem present_inputs (r : Block Value × List Word) (s : State) : (present r s).inputs = s.inputs := rfl
@[simp] theorem present_busRead (r : Block Value × List Word) (s : State) : (present r s).busRead = s.busRead := rfl
@[simp] theorem present_outPort (r : Block Value × List Word) (s : State) : (present r s).outPort = some r.2 := rfl
@[simp] theorem beginTransition_block (rest : List Event) (s : State) : (beginTransition rest s).block = s.block := rfl
@[simp] theorem beginTransition_inputs (rest : List Event) (s : State) : (beginTransition rest s).inputs = rest := rfl
@[simp] theorem beginTransition_busRead (rest : List Event) (s : State) : (beginTransition rest s).busRead = none := rfl
@[simp] theorem beginTransition_outPort (rest : List Event) (s : State) : (beginTransition rest s).outPort = none := rfl

/-! ### The tuning registers -/

@[simp] theorem readTuning_writeTuning_same (x : Tuning) (i : Fin 6) (v : Word) :
    readTuning (writeTuning x i v) i = v := by
  fin_cases i <;> rfl

@[simp] theorem readTuning_writeTuning_other (x : Tuning) (i j : Fin 6) (v : Word) (h : i ≠ j) :
    readTuning (writeTuning x i v) j = readTuning x j := by
  fin_cases i <;> fin_cases j <;> first | exact absurd rfl h | rfl

/-- `VALID[j]` after `VALID[i]` is set. -/
@[simp] theorem getLsbD_or_validBit (v : BitVec 6) (i j : Fin 6) :
    (v ||| validBit i).getLsbD j.val = (v.getLsbD j.val || decide (i = j)) := by
  fin_cases i <;> fin_cases j <;> simp [validBit]

/-! ### The block's updates: an event changes its sticky bit, its cause field and its counter -/

section BlockUpdates

variable {F : Type} (b : Block F)

@[simp] theorem raiseEvent_tuning (e : RaisedEvent) : (raiseEvent e b).tuning = b.tuning := by cases e <;> rfl
@[simp] theorem raiseEvent_valid (e : RaisedEvent) : (raiseEvent e b).valid = b.valid := by cases e <;> rfl
@[simp] theorem raiseEvent_run (e : RaisedEvent) : (raiseEvent e b).run = b.run := by cases e <;> rfl
@[simp] theorem raiseEvent_frameCount (e : RaisedEvent) : (raiseEvent e b).frameCount = b.frameCount := by cases e <;> rfl
@[simp] theorem raiseEvent_spec (e : RaisedEvent) : (raiseEvent e b).spec = b.spec := by cases e <;> rfl
@[simp] theorem raise_configError_cfgErr (c : ConfigCause) : (raiseEvent (.configError c) b).cfgErr = true := rfl
@[simp] theorem raise_configError_synErr (c : ConfigCause) : (raiseEvent (.configError c) b).synErr = b.synErr := rfl
@[simp] theorem raise_configError_underrun (c : ConfigCause) : (raiseEvent (.configError c) b).underrun = b.underrun := rfl
@[simp] theorem raise_configError_fault (c : ConfigCause) : (raiseEvent (.configError c) b).fault = b.fault := rfl
@[simp] theorem raise_configError_faultCause (c : ConfigCause) : (raiseEvent (.configError c) b).faultCause = b.faultCause := rfl
@[simp] theorem raise_configError_cfgCause (c : ConfigCause) : (raiseEvent (.configError c) b).cfgCause = configCode c := rfl
@[simp] theorem raise_configError_synMask (c : ConfigCause) : (raiseEvent (.configError c) b).synMask = b.synMask := rfl
@[simp] theorem raise_configError_underrunCount (c : ConfigCause) : (raiseEvent (.configError c) b).underrunCount = b.underrunCount := rfl
@[simp] theorem raise_configError_faultCount (c : ConfigCause) : (raiseEvent (.configError c) b).faultCount = b.faultCount := rfl
@[simp] theorem raise_synthesisError_cfgErr (m : BitVec 3) : (raiseEvent (.synthesisError m) b).cfgErr = b.cfgErr := rfl
@[simp] theorem raise_synthesisError_synErr (m : BitVec 3) : (raiseEvent (.synthesisError m) b).synErr = true := rfl
@[simp] theorem raise_synthesisError_underrun (m : BitVec 3) : (raiseEvent (.synthesisError m) b).underrun = b.underrun := rfl
@[simp] theorem raise_synthesisError_fault (m : BitVec 3) : (raiseEvent (.synthesisError m) b).fault = b.fault := rfl
@[simp] theorem raise_synthesisError_faultCause (m : BitVec 3) : (raiseEvent (.synthesisError m) b).faultCause = b.faultCause := rfl
@[simp] theorem raise_synthesisError_cfgCause (m : BitVec 3) : (raiseEvent (.synthesisError m) b).cfgCause = b.cfgCause := rfl
@[simp] theorem raise_synthesisError_synMask (m : BitVec 3) : (raiseEvent (.synthesisError m) b).synMask = m := rfl
@[simp] theorem raise_synthesisError_underrunCount (m : BitVec 3) : (raiseEvent (.synthesisError m) b).underrunCount = b.underrunCount := rfl
@[simp] theorem raise_synthesisError_faultCount (m : BitVec 3) : (raiseEvent (.synthesisError m) b).faultCount = b.faultCount := rfl
@[simp] theorem raise_underrun_cfgErr  : (raiseEvent .underrun b).cfgErr = b.cfgErr := rfl
@[simp] theorem raise_underrun_synErr  : (raiseEvent .underrun b).synErr = b.synErr := rfl
@[simp] theorem raise_underrun_underrun  : (raiseEvent .underrun b).underrun = true := rfl
@[simp] theorem raise_underrun_fault  : (raiseEvent .underrun b).fault = b.fault := rfl
@[simp] theorem raise_underrun_faultCause  : (raiseEvent .underrun b).faultCause = b.faultCause := rfl
@[simp] theorem raise_underrun_cfgCause  : (raiseEvent .underrun b).cfgCause = b.cfgCause := rfl
@[simp] theorem raise_underrun_synMask  : (raiseEvent .underrun b).synMask = b.synMask := rfl
@[simp] theorem raise_underrun_underrunCount  : (raiseEvent .underrun b).underrunCount = b.underrunCount + 1 := rfl
@[simp] theorem raise_underrun_faultCount  : (raiseEvent .underrun b).faultCount = b.faultCount := rfl
@[simp] theorem raise_frameFault_cfgErr (c : FaultCause) : (raiseEvent (.frameFault c) b).cfgErr = b.cfgErr := rfl
@[simp] theorem raise_frameFault_synErr (c : FaultCause) : (raiseEvent (.frameFault c) b).synErr = b.synErr := rfl
@[simp] theorem raise_frameFault_underrun (c : FaultCause) : (raiseEvent (.frameFault c) b).underrun = b.underrun := rfl
@[simp] theorem raise_frameFault_fault (c : FaultCause) : (raiseEvent (.frameFault c) b).fault = true := rfl
@[simp] theorem raise_frameFault_faultCause (c : FaultCause) : (raiseEvent (.frameFault c) b).faultCause = faultCode c := rfl
@[simp] theorem raise_frameFault_cfgCause (c : FaultCause) : (raiseEvent (.frameFault c) b).cfgCause = b.cfgCause := rfl
@[simp] theorem raise_frameFault_synMask (c : FaultCause) : (raiseEvent (.frameFault c) b).synMask = b.synMask := rfl
@[simp] theorem raise_frameFault_underrunCount (c : FaultCause) : (raiseEvent (.frameFault c) b).underrunCount = b.underrunCount := rfl
@[simp] theorem raise_frameFault_faultCount (c : FaultCause) : (raiseEvent (.frameFault c) b).faultCount = b.faultCount + 1 := rfl
@[simp] theorem stopRun_tuning  : (stopRun b).tuning = b.tuning := rfl
@[simp] theorem stopRun_valid  : (stopRun b).valid = b.valid := rfl
@[simp] theorem stopRun_run  : (stopRun b).run = false := rfl
@[simp] theorem stopRun_cfgErr  : (stopRun b).cfgErr = b.cfgErr := rfl
@[simp] theorem stopRun_synErr  : (stopRun b).synErr = b.synErr := rfl
@[simp] theorem stopRun_underrun  : (stopRun b).underrun = b.underrun := rfl
@[simp] theorem stopRun_fault  : (stopRun b).fault = b.fault := rfl
@[simp] theorem stopRun_faultCause  : (stopRun b).faultCause = b.faultCause := rfl
@[simp] theorem stopRun_cfgCause  : (stopRun b).cfgCause = b.cfgCause := rfl
@[simp] theorem stopRun_synMask  : (stopRun b).synMask = b.synMask := rfl
@[simp] theorem stopRun_frameCount  : (stopRun b).frameCount = b.frameCount := rfl
@[simp] theorem stopRun_underrunCount  : (stopRun b).underrunCount = b.underrunCount := rfl
@[simp] theorem stopRun_faultCount  : (stopRun b).faultCount = b.faultCount := rfl
@[simp] theorem stopRun_spec  : (stopRun b).spec = b.spec := rfl
@[simp] theorem clearSticky_tuning (m : Word) : (clearSticky m b).tuning = b.tuning := rfl
@[simp] theorem clearSticky_valid (m : Word) : (clearSticky m b).valid = b.valid := rfl
@[simp] theorem clearSticky_run (m : Word) : (clearSticky m b).run = b.run := rfl
@[simp] theorem clearSticky_cfgErr (m : Word) : (clearSticky m b).cfgErr = (b.cfgErr && !m.getLsbD 4) := rfl
@[simp] theorem clearSticky_synErr (m : Word) : (clearSticky m b).synErr = (b.synErr && !m.getLsbD 5) := rfl
@[simp] theorem clearSticky_underrun (m : Word) : (clearSticky m b).underrun = (b.underrun && !m.getLsbD 6) := rfl
@[simp] theorem clearSticky_fault (m : Word) : (clearSticky m b).fault = (b.fault && !m.getLsbD 7) := rfl
@[simp] theorem clearSticky_faultCause (m : Word) : (clearSticky m b).faultCause = b.faultCause := rfl
@[simp] theorem clearSticky_cfgCause (m : Word) : (clearSticky m b).cfgCause = b.cfgCause := rfl
@[simp] theorem clearSticky_synMask (m : Word) : (clearSticky m b).synMask = b.synMask := rfl
@[simp] theorem clearSticky_frameCount (m : Word) : (clearSticky m b).frameCount = b.frameCount := rfl
@[simp] theorem clearSticky_underrunCount (m : Word) : (clearSticky m b).underrunCount = b.underrunCount := rfl
@[simp] theorem clearSticky_faultCount (m : Word) : (clearSticky m b).faultCount = b.faultCount := rfl
@[simp] theorem clearSticky_spec (m : Word) : (clearSticky m b).spec = b.spec := rfl
@[simp] theorem resetBlock_eq  : resetBlock b = Block.reset := rfl
@[simp] theorem emit_tuning (o : List Word) : (emit o b).1.tuning = b.tuning := rfl
@[simp] theorem emit_valid (o : List Word) : (emit o b).1.valid = b.valid := rfl
@[simp] theorem emit_run (o : List Word) : (emit o b).1.run = b.run := rfl
@[simp] theorem emit_cfgErr (o : List Word) : (emit o b).1.cfgErr = b.cfgErr := rfl
@[simp] theorem emit_synErr (o : List Word) : (emit o b).1.synErr = b.synErr := rfl
@[simp] theorem emit_underrun (o : List Word) : (emit o b).1.underrun = b.underrun := rfl
@[simp] theorem emit_fault (o : List Word) : (emit o b).1.fault = b.fault := rfl
@[simp] theorem emit_faultCause (o : List Word) : (emit o b).1.faultCause = b.faultCause := rfl
@[simp] theorem emit_cfgCause (o : List Word) : (emit o b).1.cfgCause = b.cfgCause := rfl
@[simp] theorem emit_synMask (o : List Word) : (emit o b).1.synMask = b.synMask := rfl
@[simp] theorem emit_frameCount (o : List Word) : (emit o b).1.frameCount = b.frameCount + 1 := rfl
@[simp] theorem emit_underrunCount (o : List Word) : (emit o b).1.underrunCount = b.underrunCount := rfl
@[simp] theorem emit_faultCount (o : List Word) : (emit o b).1.faultCount = b.faultCount := rfl
@[simp] theorem emit_spec (o : List Word) : (emit o b).1.spec = b.spec := rfl
@[simp] theorem emit_frame (o : List Word) : (emit o b).2 = o := rfl
@[simp] theorem failFrame_frame (n : Nat) (c : FaultCause) : (failFrame n c b).2 = silence n := rfl
@[simp] theorem failFrame_block (n : Nat) (c : FaultCause) : (failFrame n c b).1 = (emit (silence n) (raiseEvent (.frameFault c) b)).1 := rfl

end BlockUpdates

end Sys2Proof.Machine
end

