-- ==== Sys2Proof/Laws/Ops.lean ====
section
/-! SUPPORT. For each shared operation, once, everything it can do: the setters' store, the run gate,
synthesis, the frame's lengths and the frame step. Proofs about instructions cite these lemmas and do not
unfold the operations. -/

namespace Sys2Proof.Machine

/-- Every instruction answers a next state (60 R294). -/
theorem exec_answers_next (i : Instr) (s : State) : ∃ t, exec i s = .next t := by
  cases i <;> exact ⟨_, rfl⟩

section Block

variable {F : Type}

/-! ### Setters and the run gate -/

theorem setTuning_of_legal (i : Fin 6) (c : ConfigCause) (d : Word) (b : Block F)
    (h : legalTuning i d = true) :
    setTuning i c d b =
      { b with tuning := writeTuning b.tuning i d, valid := b.valid ||| validBit i } := by
  simp only [setTuning, h, if_true]

theorem setTuning_of_illegal (i : Fin 6) (c : ConfigCause) (d : Word) (b : Block F)
    (h : legalTuning i d = false) : setTuning i c d b = raiseEvent (.configError c) b := by
  simp only [setTuning, h, Bool.false_eq_true, if_false]

theorem startRun_of_tuned (b : Block F) (h : tuned b.valid = true) :
    startRun b = { b with run := true } := by
  simp only [startRun, h, if_true]

theorem startRun_of_untuned (b : Block F) (h : tuned b.valid = false) :
    startRun b = raiseEvent (.configError .startRefused) b := by
  simp only [startRun, h, Bool.false_eq_true, if_false]

theorem tuned_iff (v : BitVec 6) : tuned v = true ↔ v = 0b111111#6 := by
  simp [tuned]

/-! ### Synthesis -/

/-- FilterSpec is valid and its tag is the snapshot's (40 R130). -/
abbrev specIsCurrent (tag : Tag) (b : Block F) : Prop := b.spec.specValid = true ∧ b.spec.tag = tag

theorem synth_of_current (C : Cfg F) (tag : Tag) (b : Block F) (h : specIsCurrent tag b) :
    synth C tag b = b := by
  simp [synth, h.1, h.2]

theorem synth_of_stale (C : Cfg F) (tag : Tag) (b : Block F) (h : ¬ specIsCurrent tag b) :
    synth C tag b =
      { b with
        spec := ⟨true, tag, (synthesize C tag).1⟩
        synMask := (synthesize C tag).2
        synErr := b.synErr || decide ((synthesize C tag).2 ≠ 0#3) } := by
  have h' : (b.spec.specValid && b.spec.tag == tag) = false := by
    cases hv : b.spec.specValid
    · rfl
    · simpa [specIsCurrent, hv] using h
  simp only [synth, h', Bool.false_eq_true, if_false]
  split
  · next h0 => simp [h0]
  · next h0 => simp [h0, raiseEvent]

/-- What SYNTH can do: nothing, or write FilterSpec, SYN_MASK and SYNERR (40 R130). -/
theorem synth_cases (C : Cfg F) (tag : Tag) (b : Block F) :
    (specIsCurrent tag b ∧ synth C tag b = b) ∨
    (¬ specIsCurrent tag b ∧ synth C tag b =
      { b with
        spec := ⟨true, tag, (synthesize C tag).1⟩
        synMask := (synthesize C tag).2
        synErr := b.synErr || decide ((synthesize C tag).2 ≠ 0#3) }) := by
  by_cases h : specIsCurrent tag b
  · exact .inl ⟨h, synth_of_current C tag b h⟩
  · exact .inr ⟨h, synth_of_stale C tag b h⟩

/-- After SYNTH, FilterSpec is valid and tagged with the snapshot. -/
theorem synth_isCurrent (C : Cfg F) (tag : Tag) (b : Block F) : specIsCurrent tag (synth C tag b) := by
  obtain ⟨h, e⟩ | ⟨_, e⟩ := synth_cases C tag b
  · rw [e]; exact h
  · rw [e]; exact ⟨rfl, rfl⟩

@[simp] theorem synth_tuning (C : Cfg F) (tag : Tag) (b : Block F) : (synth C tag b).tuning = b.tuning := by
  obtain ⟨_, e⟩ | ⟨_, e⟩ := synth_cases C tag b <;> rw [e]
@[simp] theorem synth_valid (C : Cfg F) (tag : Tag) (b : Block F) : (synth C tag b).valid = b.valid := by
  obtain ⟨_, e⟩ | ⟨_, e⟩ := synth_cases C tag b <;> rw [e]
@[simp] theorem synth_run (C : Cfg F) (tag : Tag) (b : Block F) : (synth C tag b).run = b.run := by
  obtain ⟨_, e⟩ | ⟨_, e⟩ := synth_cases C tag b <;> rw [e]
@[simp] theorem synth_cfgErr (C : Cfg F) (tag : Tag) (b : Block F) : (synth C tag b).cfgErr = b.cfgErr := by
  obtain ⟨_, e⟩ | ⟨_, e⟩ := synth_cases C tag b <;> rw [e]
@[simp] theorem synth_underrun (C : Cfg F) (tag : Tag) (b : Block F) : (synth C tag b).underrun = b.underrun := by
  obtain ⟨_, e⟩ | ⟨_, e⟩ := synth_cases C tag b <;> rw [e]
@[simp] theorem synth_fault (C : Cfg F) (tag : Tag) (b : Block F) : (synth C tag b).fault = b.fault := by
  obtain ⟨_, e⟩ | ⟨_, e⟩ := synth_cases C tag b <;> rw [e]
@[simp] theorem synth_faultCause (C : Cfg F) (tag : Tag) (b : Block F) : (synth C tag b).faultCause = b.faultCause := by
  obtain ⟨_, e⟩ | ⟨_, e⟩ := synth_cases C tag b <;> rw [e]
@[simp] theorem synth_cfgCause (C : Cfg F) (tag : Tag) (b : Block F) : (synth C tag b).cfgCause = b.cfgCause := by
  obtain ⟨_, e⟩ | ⟨_, e⟩ := synth_cases C tag b <;> rw [e]
@[simp] theorem synth_frameCount (C : Cfg F) (tag : Tag) (b : Block F) : (synth C tag b).frameCount = b.frameCount := by
  obtain ⟨_, e⟩ | ⟨_, e⟩ := synth_cases C tag b <;> rw [e]
@[simp] theorem synth_underrunCount (C : Cfg F) (tag : Tag) (b : Block F) : (synth C tag b).underrunCount = b.underrunCount := by
  obtain ⟨_, e⟩ | ⟨_, e⟩ := synth_cases C tag b <;> rw [e]
@[simp] theorem synth_faultCount (C : Cfg F) (tag : Tag) (b : Block F) : (synth C tag b).faultCount = b.faultCount := by
  obtain ⟨_, e⟩ | ⟨_, e⟩ := synth_cases C tag b <;> rw [e]

/-! ### The padded frame -/

@[simp] theorem paddedFrame_length (n : Nat) (t : FrameTick) : (paddedFrame n t).length = n := by
  simp [paddedFrame]

@[simp] theorem silence_length (n : Nat) : (silence n).length = n := by simp [silence]

@[simp] theorem allFinite_silence (n : Nat) : allFinite (silence n) = true := by
  simp [allFinite, silence, finite, expField]

@[simp] theorem noteUnderrun_tuning (C : Cfg F) (t : FrameTick) (b : Block F) :
    (noteUnderrun C t b).tuning = b.tuning := by
  unfold noteUnderrun; split <;> rfl
@[simp] theorem noteUnderrun_valid (C : Cfg F) (t : FrameTick) (b : Block F) :
    (noteUnderrun C t b).valid = b.valid := by
  unfold noteUnderrun; split <;> rfl
@[simp] theorem noteUnderrun_run (C : Cfg F) (t : FrameTick) (b : Block F) :
    (noteUnderrun C t b).run = b.run := by
  unfold noteUnderrun; split <;> rfl
@[simp] theorem noteUnderrun_cfgErr (C : Cfg F) (t : FrameTick) (b : Block F) :
    (noteUnderrun C t b).cfgErr = b.cfgErr := by
  unfold noteUnderrun; split <;> rfl
@[simp] theorem noteUnderrun_synErr (C : Cfg F) (t : FrameTick) (b : Block F) :
    (noteUnderrun C t b).synErr = b.synErr := by
  unfold noteUnderrun; split <;> rfl
@[simp] theorem noteUnderrun_fault (C : Cfg F) (t : FrameTick) (b : Block F) :
    (noteUnderrun C t b).fault = b.fault := by
  unfold noteUnderrun; split <;> rfl
@[simp] theorem noteUnderrun_faultCause (C : Cfg F) (t : FrameTick) (b : Block F) :
    (noteUnderrun C t b).faultCause = b.faultCause := by
  unfold noteUnderrun; split <;> rfl
@[simp] theorem noteUnderrun_cfgCause (C : Cfg F) (t : FrameTick) (b : Block F) :
    (noteUnderrun C t b).cfgCause = b.cfgCause := by
  unfold noteUnderrun; split <;> rfl
@[simp] theorem noteUnderrun_synMask (C : Cfg F) (t : FrameTick) (b : Block F) :
    (noteUnderrun C t b).synMask = b.synMask := by
  unfold noteUnderrun; split <;> rfl
@[simp] theorem noteUnderrun_frameCount (C : Cfg F) (t : FrameTick) (b : Block F) :
    (noteUnderrun C t b).frameCount = b.frameCount := by
  unfold noteUnderrun; split <;> rfl
@[simp] theorem noteUnderrun_faultCount (C : Cfg F) (t : FrameTick) (b : Block F) :
    (noteUnderrun C t b).faultCount = b.faultCount := by
  unfold noteUnderrun; split <;> rfl
@[simp] theorem noteUnderrun_spec (C : Cfg F) (t : FrameTick) (b : Block F) :
    (noteUnderrun C t b).spec = b.spec := by
  unfold noteUnderrun; split <;> rfl

@[simp] theorem noteUnderrun_underrun (C : Cfg F) (t : FrameTick) (b : Block F) :
    (noteUnderrun C t b).underrun = (b.underrun || isShort C.n t) := by
  unfold noteUnderrun; split <;> simp_all

@[simp] theorem noteUnderrun_underrunCount (C : Cfg F) (t : FrameTick) (b : Block F) :
    (noteUnderrun C t b).underrunCount = b.underrunCount + (if isShort C.n t then 1#32 else 0#32) := by
  unfold noteUnderrun; split <;> simp_all

/-! ### Lengths: every operation on a frame keeps its N positions (42 R180) -/

@[simp] theorem biquadFrom_length (M : Num F) (sec : Biquad F) (s1 s2 : F) (v : List F) :
    (biquadFrom M sec s1 s2 v).length = v.length := by
  induction v generalizing s1 s2 with
  | nil => rfl
  | cons x xs ih => simp [biquadFrom, ih]

@[simp] theorem biquad_length (M : Num F) (sec : Biquad F) (v : List F) :
    (biquad M sec v).length = v.length := biquadFrom_length ..

@[simp] theorem cascade_length (M : Num F) {k : Nat} (c : Bank F k) (v : List F) :
    (cascade M c v).length = v.length := by
  unfold cascade
  induction c.toList generalizing v with
  | nil => rfl
  | cons x xs ih => simp [ih]

@[simp] theorem zeroPhase_length (M : Num F) {k : Nat} (c : Option (Bank F k)) (v : List F) :
    (zeroPhase M c v).length = v.length := by
  cases c <;> simp [zeroPhase]

@[simp] theorem carrier_length (C : Cfg F) (fc : F) : (carrier C fc).length = C.n := by simp [carrier]

@[simp] theorem mix_length (M : Num F) (v c : List F) : (mix M v c).length = min v.length c.length := by
  simp [mix]

@[simp] theorem rectify_length (M : Num F) (v : List F) : (rectify M v).length = v.length := by
  simp [rectify]

@[simp] theorem diff_length (M : Num F) (v : List F) : (diff M v).length = v.length := by
  cases v <;> simp [diff]

@[simp] theorem gain_length (C : Cfg F) (v : List F) : (gain C v).length = v.length := by simp [gain]

@[simp] theorem scaleVolume_length (M : Num F) (vol : F) (v : List F) :
    (scaleVolume M vol v).length = v.length := by simp [scaleVolume]

theorem demodulate_length (C : Cfg F) (mode : DemodMode) (banks : Banks F) (snap : Tuning) (xs : List F)
    (h : xs.length = C.n) : (demodulate C mode banks snap xs).length = C.n := by
  cases mode <;> simp [demodulate, demodAm, demodFm, demodPt, h]

@[simp] theorem framePatterns_length (C : Cfg F) (mode : DemodMode) (snap : Tuning) (banks : Banks F)
    (p : List Word) (h : p.length = C.n) : (framePatterns C mode snap banks p).length = C.n := by
  simp [framePatterns, demodulate_length, h]

/-! ### The frame step -/

/-- The three ways a frame step ends: an input fault, an output fault, a frame (43 R210). -/
theorem frameStep_cases (C : Cfg F) (mode : DemodMode) (t : FrameTick) (b : Block F) :
    (allFinite (paddedFrame C.n t) = false ∧
      frameStep C mode t b = failFrame C.n .inputNonfinite (noteUnderrun C t b)) ∨
    (allFinite (paddedFrame C.n t) = true ∧
      ∃ o, o = framePatterns C mode b.tuning (synth C (tagOf b.tuning) (noteUnderrun C t b)).spec.banks
          (paddedFrame C.n t) ∧
        ((allFinite o = false ∧ frameStep C mode t b =
            failFrame C.n .outputNonfinite (synth C (tagOf b.tuning) (noteUnderrun C t b))) ∨
         (allFinite o = true ∧ frameStep C mode t b =
            emit o (synth C (tagOf b.tuning) (noteUnderrun C t b))))) := by
  unfold frameStep
  cases hp : allFinite (paddedFrame C.n t)
  · exact .inl ⟨rfl, by simp [hp]⟩
  · refine .inr ⟨rfl, _, rfl, ?_⟩
    cases ho : allFinite (framePatterns C mode b.tuning
      (synth C (tagOf b.tuning) (noteUnderrun C t b)).spec.banks (paddedFrame C.n t))
    · exact .inl ⟨rfl, by simp [hp, ho]⟩
    · exact .inr ⟨rfl, by simp [hp, ho]⟩

/-! ### The coefficient finiteness check -/

/-- A bank that CHK lets through has only finite coefficients (40 R136). -/
theorem chk_finite (M : Num F) {k : Nat} {r : Option (Bank F k)} {c : Bank F k} (h : chk M r = some c) :
    bankFinite M c = true := by
  unfold chk at h
  cases r with
  | none => cases h
  | some d =>
    simp only at h
    split at h
    · next hd => cases h; exact hd
    · cases h

end Block

/-! ### The arms of exec -/

theorem exec_setterOf (i : Fin 6) (d : Word) (s : State) :
    exec (setterOf i d) s =
      .next (onBlock (setTuning i (if i.val < 4 then .illegalValue else .reservedCode) d) s) := by
  fin_cases i <;> rfl

theorem exec_frameOf (m : DemodMode) (t : FrameTick) (s : State) :
    exec (frameOf m t) s = .next (present (frameStep Config.cfg m t s.block) s) := by
  cases m <;> rfl

end Sys2Proof.Machine
end

