-- ==== Sys2Proof/Laws/Exec.lean ====
section
/-! SUPPORT. What one execution can do, said once for all instructions; which instructions a bus word and
a selector can decode to. Proofs over all instructions cite these and unfold no meaning. -/

namespace Sys2Proof.Machine

/-- Everything a next state of `exec` can be. -/
theorem exec_cases {i : Instr} {s t : State} (h : exec i s = .next t) :
    (∃ j d, i = setterOf j d ∧
      t = onBlock (setTuning j (if j.val < 4 then .illegalValue else .reservedCode) d) s) ∨
    ((i = .cmdNop ∨ ∃ tk, i = .frameIdle tk) ∧ t = s) ∨
    (i = .cmdStart ∧ t = onBlock startRun s) ∨
    (i = .cmdStop ∧ t = onBlock stopRun s) ∨
    (i = .cmdReset ∧ t = onBlock resetBlock s) ∨
    ((∃ d, i = .cmdRsvd d) ∧ t = onBlock (raiseEvent (.configError .reservedCommand)) s) ∨
    (∃ m, i = .w1cStatus m ∧ t = onBlock (clearSticky m) s) ∨
    ((∃ a d, i = .wrRefused a d) ∧ t = onBlock (raiseEvent (.configError .badWriteAddress)) s) ∨
    (∃ a, i = .rd a ∧ t = respond (readReg Config.cfg s.block a) s) ∨
    (∃ m tk, i = frameOf m tk ∧ t = present (frameStep Config.cfg m tk s.block) s) := by
  have e : ∀ {u : State}, (Host.Outcome.next u : Host.Outcome State Fault Refusal) = .next t → t = u :=
    fun h => (Host.Outcome.next.inj h).symm
  cases i with
  | wrCenter d => exact .inl ⟨0, d, rfl, e h⟩
  | wrBandwidth d => exact .inl ⟨1, d, rfl, e h⟩
  | wrNotch d => exact .inl ⟨2, d, rfl, e h⟩
  | wrVolume d => exact .inl ⟨3, d, rfl, e h⟩
  | wrAntenna d => exact .inl ⟨4, d, rfl, e h⟩
  | wrDemod d => exact .inl ⟨5, d, rfl, e h⟩
  | cmdNop => exact .inr (.inl ⟨.inl rfl, e h⟩)
  | cmdStart => exact .inr (.inr (.inl ⟨rfl, e h⟩))
  | cmdStop => exact .inr (.inr (.inr (.inl ⟨rfl, e h⟩)))
  | cmdReset => exact .inr (.inr (.inr (.inr (.inl ⟨rfl, e h⟩))))
  | cmdRsvd d => exact .inr (.inr (.inr (.inr (.inr (.inl ⟨⟨d, rfl⟩, e h⟩)))))
  | w1cStatus m => exact .inr (.inr (.inr (.inr (.inr (.inr (.inl ⟨m, rfl, e h⟩))))))
  | wrRefused a d => exact .inr (.inr (.inr (.inr (.inr (.inr (.inr (.inl ⟨⟨a, d, rfl⟩, e h⟩)))))))
  | rd a => exact .inr (.inr (.inr (.inr (.inr (.inr (.inr (.inr (.inl ⟨a, rfl, e h⟩))))))))
  | frameIdle tk => exact .inr (.inl ⟨.inr ⟨tk, rfl⟩, e h⟩)
  | frameAm tk => exact .inr (.inr (.inr (.inr (.inr (.inr (.inr (.inr (.inr ⟨.am, tk, rfl, e h⟩))))))))
  | frameFm tk => exact .inr (.inr (.inr (.inr (.inr (.inr (.inr (.inr (.inr ⟨.fm, tk, rfl, e h⟩))))))))
  | framePt tk =>
    exact .inr (.inr (.inr (.inr (.inr (.inr (.inr (.inr (.inr ⟨.passthrough, tk, rfl, e h⟩))))))))

/-- What holds of both arms of an `if` holds of it. -/
theorem ite_of_both {α : Type} (P : α → Prop) {c : Prop} [Decidable c] {a b : α} (ha : P a) (hb : P b) :
    P (if c then a else b) := by
  split
  · exact ha
  · exact hb

/-- What holds of every host operation holds of what a bus word decodes to. -/
theorem decodeHost_induction (P : Instr → Prop) (setter : ∀ j d, P (setterOf j d)) (nop : P .cmdNop)
    (start : P .cmdStart) (stop : P .cmdStop) (reset : P .cmdReset) (rsvd : ∀ d, P (.cmdRsvd d))
    (w1c : ∀ m, P (.w1cStatus m)) (refused : ∀ a d, P (.wrRefused a d)) (rd : ∀ a, P (.rd a))
    (tw : TransWord) : P (decodeHost tw) := by
  have cmd : ∀ d, P (decodeCommand d) := fun d =>
    ite_of_both P nop (ite_of_both P start (ite_of_both P stop (ite_of_both P reset (rsvd d))))
  have write : ∀ a d, P (decodeWrite a d) := fun a d =>
    ite_of_both P (setter 0 d) (ite_of_both P (setter 1 d) (ite_of_both P (setter 2 d)
      (ite_of_both P (setter 3 d) (ite_of_both P (setter 4 d) (ite_of_both P (setter 5 d)
        (ite_of_both P (cmd d) (ite_of_both P (w1c d) (refused a d))))))))
  exact ite_of_both P (write _ _) (rd _)

/-- No bus word decodes to a frame operation. -/
theorem decodeHost_not_frame (tw : TransWord) :
    (∀ tk, decodeHost tw ≠ .frameIdle tk) ∧ ∀ m tk, decodeHost tw ≠ frameOf m tk := by
  refine decodeHost_induction (fun i => (∀ tk, i ≠ .frameIdle tk) ∧ ∀ m tk, i ≠ frameOf m tk)
    ?_ ?_ ?_ ?_ ?_ ?_ ?_ ?_ ?_ tw
  · intro j d
    constructor
    · intro tk; fin_cases j <;> exact nofun
    · intro m tk; cases m <;> fin_cases j <;> exact nofun
  all_goals
    intros
    constructor
    · intro tk; exact nofun
    · intro m tk; cases m <;> exact nofun

/-- A selector without its RUN bit decodes to the idle tick. -/
theorem decodeFrame_of_idle (sel : BitVec 3) (t : FrameTick) (h : sel.getLsbD 2 = false) :
    decodeFrame sel t = .ok (.frameIdle t) := by
  have key : ∀ x : BitVec 3, x.getLsbD 2 = false → x ≠ 4#3 ∧ x ≠ 5#3 ∧ x ≠ 6#3 ∧ x ≠ 7#3 := by decide
  obtain ⟨a, b, c, d⟩ := key sel h
  simp only [decodeFrame, if_neg a, if_neg b, if_neg c, if_neg d]

/-- A selector with its RUN bit and a mode code below 3 decodes to that mode's operation. -/
theorem decodeFrame_of_run (sel : BitVec 3) (t : FrameTick) (h : sel.getLsbD 2 = true) :
    (∃ m, decodeFrame sel t = .ok (frameOf m t)) ∨
      (sel = 7#3 ∧ decodeFrame sel t = .error .reservedSelector) := by
  have key : ∀ x : BitVec 3, x.getLsbD 2 = true → x = 4#3 ∨ x = 5#3 ∨ x = 6#3 ∨ x = 7#3 := by decide
  obtain rfl | rfl | rfl | rfl := key sel h
  · exact .inl ⟨.am, rfl⟩
  · exact .inl ⟨.fm, rfl⟩
  · exact .inl ⟨.passthrough, rfl⟩
  · exact .inr ⟨rfl, rfl⟩

/-- The selector's RUN bit. -/
@[simp] theorem selector_getLsbD_two (run : Bool) (x : Tuning) : (selector run x).getLsbD 2 = run := by
  unfold selector
  generalize x.demod.extractLsb' 0 2 = m
  revert run m; decide

end Sys2Proof.Machine
end

