-- ==== Sys2Proof/Laws/Num.lean ====
section
/-! SUPPORT. R11's notion of a zero: an instance that has R11's properties as they are written is
lawful, the machine's configuration has them, and neither NUM_REAL nor NUM_IEEE of binary64 is such an instance (spec 00 R11,
R12; log 5). -/

namespace Sys2Proof.Machine

/-- R11 as written is one way to be lawful: its zeros are the values with a zero pattern. -/
theorem lawful_of_asWritten {F : Type} {M : Num F} (h : M.LawfulAsWritten) : ∃ Z, M.Lawful Z := ⟨_, h⟩

/-- The machine's configuration has R11's properties as they are written. -/
theorem config_num_asWritten : Config.cfg.num.LawfulAsWritten := Config.cfg_legal.num_asWritten

/-- 2^-150 is half of the smallest subnormal and rounds to the zero pattern, the even neighbour. -/
theorem roundB32_half_unit : roundB32 ((1 : ℝ) / 2 ^ 150) = 0#32 := by
  have e : (1 : ℝ) / 2 ^ 150 * 2 ^ 149 = 1 / 2 := by norm_num
  have f : ⌊(1 / 2 : ℝ)⌋₊ = 0 := Nat.floor_eq_zero.mpr (by norm_num)
  have n : ¬ ((1 : ℝ) / 2 ^ 150 < 0) := by norm_num
  simp only [roundB32, if_neg n, e, roundMag]
  norm_num [roundEven, f, n]

/-- The smallest subnormal is its own pattern. -/
theorem roundB32_unit : roundB32 ((1 : ℝ) / 2 ^ 149) = 1#32 := by
  have e : (1 : ℝ) / 2 ^ 149 * 2 ^ 149 = 1 := by norm_num
  have n : ¬ ((1 : ℝ) / 2 ^ 149 < 0) := by norm_num
  simp only [roundB32, if_neg n, e, roundMag]
  have l : Nat.log2 ⌊(1 : ℝ)⌋₊ = 0 := by rw [Nat.floor_one]; decide
  rw [l]
  norm_num [roundEven, n]

/-- NP2 as written is false of NUM_REAL: two values with the zero pattern have a sum without it. -/
theorem numReal_not_lawfulAsWritten : ¬ numReal.LawfulAsWritten := by
  intro h
  have z : isZero (numReal.toB32 ((1 : ℝ) / 2 ^ 150)) = true := by
    show isZero (roundB32 ((1 : ℝ) / 2 ^ 150)) = true
    rw [roundB32_half_unit]; decide
  have s := h.np2_add _ _ z z
  have e : numReal.add ((1 : ℝ) / 2 ^ 150) ((1 : ℝ) / 2 ^ 150) = (1 : ℝ) / 2 ^ 149 := by
    show (1 : ℝ) / 2 ^ 150 + (1 : ℝ) / 2 ^ 150 = _
    norm_num
  rw [e] at s
  have s' : isZero (roundB32 ((1 : ℝ) / 2 ^ 149)) = true := s
  rw [roundB32_unit] at s'
  exact absurd s' (by decide)

/-- NP2 as written is false of binary64 too: the same two values. -/
theorem binary64_not_lawfulAsWritten (cosine : IeeeValue ⟨11, 52⟩ → IeeeValue ⟨11, 52⟩)
    (twoPi : IeeeValue ⟨11, 52⟩) : ¬ (numIeee ⟨11, 52⟩ cosine twoPi).LawfulAsWritten := by
  intro h
  have sum : ∀ a b : IeeeValue ⟨11, 52⟩, isZero (ieeeNarrow a) = true → isZero (ieeeNarrow b) = true →
      isZero (ieeeNarrow (ieeeAdd a b)) = true := fun a b ha hb => h.np2_add a b ha hb
  obtain ⟨a, ha, hs⟩ : ∃ a : IeeeValue ⟨11, 52⟩,
      isZero (ieeeNarrow a) = true ∧ isZero (ieeeNarrow (ieeeAdd a a)) = false :=
    ⟨0x3690000000000000#64, by decide +kernel, by decide +kernel⟩
  exact absurd (sum a a ha ha) (by rw [hs]; exact Bool.false_ne_true)

end Sys2Proof.Machine
end

