-- ==== Sys2Proof/Laws/PerInstr.lean ====
section
/-! SUPPORT. Per instruction: the encoding of a well-formed instruction matches its own row of the opcode
table, by match and mask (spec 30 R104, R105). -/

namespace Sys2Proof.Laws.RowMatch

open Sys2Proof Machine

/-- The row named by the instruction's mnemonic matches the instruction's encoding. -/
def Statement (i : Instr) : Prop :=
  i.wellFormed = true →
    match encode i with
    | .host tw => ∃ r ∈ hostRows, r.mnemonic = mnemonicOf i ∧ rowMatches r tw = true
    | .frame sel _ => ∃ r ∈ frameRows, r.mnemonic = mnemonicOf i ∧ rowMatches r sel = true

/-- A transaction word under a mask that keeps exactly its first byte. -/
theorem first_byte_mask (w : Bool) (a : Addr) (d : Word) :
    twOf w a d &&& 0xFF00000000#40 = twOf w a 0#32 := by
  have h : (0xFF00000000#40) = ((0xFF#8 : BitVec 8) ++ (0#32 : BitVec 32) : BitVec 40) := by decide
  have e : ∀ x : Word, twOf w a x = ((BitVec.ofBool w ++ a : BitVec 8) ++ x : BitVec 40) := fun _ => rfl
  have a8 : (0xFF#8 : BitVec 8) = BitVec.allOnes 8 := rfl
  rw [h, e, e, BitVec.and_append, BitVec.and_zero, a8, BitVec.and_allOnes]

/-- A transaction word under a mask that keeps exactly its first bit. -/
theorem first_bit_mask (w : Bool) (a : Addr) (d : Word) :
    twOf w a d &&& 0x8000000000#40 = twOf w 0#7 0#32 := by
  have h : (0x8000000000#40) = ((1#1 : BitVec 1) ++ (0#7 : BitVec 7) ++ (0#32 : BitVec 32) : BitVec 40) := by
    decide
  have e : ∀ (b : Addr) (x : Word),
      twOf w b x = ((BitVec.ofBool w ++ b : BitVec 8) ++ x : BitVec 40) := fun _ _ => rfl
  have a1 : (1#1 : BitVec 1) = BitVec.allOnes 1 := rfl
  rw [h, e, e, BitVec.and_append, BitVec.and_append, BitVec.and_zero, BitVec.and_zero, a1,
    BitVec.and_allOnes]

/-- The shape of the rows that fix the first byte. -/
theorem byte_row (m : String) (a : Addr) (p : TransWord) (h : twOf true a 0#32 = p) (d : Word) :
    rowMatches ⟨m, p, 0xFF00000000#40⟩ (twOf true a d) = true := by
  simp [rowMatches, first_byte_mask, h]

theorem wrCenter (d : Word) : Statement (.wrCenter d) := fun _ =>
  ⟨⟨"WR.CENTER", 0x9000000000#40, 0xFF00000000#40⟩, by decide, rfl, byte_row _ _ _ (by decide) d⟩
theorem wrBandwidth (d : Word) : Statement (.wrBandwidth d) := fun _ =>
  ⟨⟨"WR.BANDWIDTH", 0x9100000000#40, 0xFF00000000#40⟩, by decide, rfl, byte_row _ _ _ (by decide) d⟩
theorem wrNotch (d : Word) : Statement (.wrNotch d) := fun _ =>
  ⟨⟨"WR.NOTCH", 0x9200000000#40, 0xFF00000000#40⟩, by decide, rfl, byte_row _ _ _ (by decide) d⟩
theorem wrVolume (d : Word) : Statement (.wrVolume d) := fun _ =>
  ⟨⟨"WR.VOLUME", 0x9300000000#40, 0xFF00000000#40⟩, by decide, rfl, byte_row _ _ _ (by decide) d⟩
theorem wrAntenna (d : Word) : Statement (.wrAntenna d) := fun _ =>
  ⟨⟨"WR.ANTENNA", 0x9400000000#40, 0xFF00000000#40⟩, by decide, rfl, byte_row _ _ _ (by decide) d⟩
theorem wrDemod (d : Word) : Statement (.wrDemod d) := fun _ =>
  ⟨⟨"WR.DEMOD", 0x9500000000#40, 0xFF00000000#40⟩, by decide, rfl, byte_row _ _ _ (by decide) d⟩
theorem cmdNop : Statement .cmdNop := fun _ =>
  ⟨⟨"CMD.NOP", 0x8800000000#40, 0xFFFFFFFFFF#40⟩, by decide, rfl, by decide⟩
theorem cmdStart : Statement .cmdStart := fun _ =>
  ⟨⟨"CMD.START", 0x8800000001#40, 0xFFFFFFFFFF#40⟩, by decide, rfl, by decide⟩
theorem cmdStop : Statement .cmdStop := fun _ =>
  ⟨⟨"CMD.STOP", 0x8800000002#40, 0xFFFFFFFFFF#40⟩, by decide, rfl, by decide⟩
theorem cmdReset : Statement .cmdReset := fun _ =>
  ⟨⟨"CMD.RESET", 0x8800000003#40, 0xFFFFFFFFFF#40⟩, by decide, rfl, by decide⟩
theorem cmdRsvd (d : Word) : Statement (.cmdRsvd d) := fun _ =>
  ⟨⟨"CMD.RSVD", 0x8800000000#40, 0xFF00000000#40⟩, by decide, rfl, byte_row _ _ _ (by decide) d⟩
theorem w1cStatus (d : Word) : Statement (.w1cStatus d) := fun _ =>
  ⟨⟨"W1C.STATUS", 0x8900000000#40, 0xFF00000000#40⟩, by decide, rfl, byte_row _ _ _ (by decide) d⟩
theorem wrRefused (a : Addr) (d : Word) : Statement (.wrRefused a d) := fun _ =>
  ⟨⟨"WR.REFUSED", 0x8000000000#40, 0x8000000000#40⟩, by decide, rfl, by
    simp only [rowMatches, first_bit_mask]; decide⟩
theorem rd (a : Addr) : Statement (.rd a) := fun _ =>
  ⟨⟨"RD", 0x0000000000#40, 0x8000000000#40⟩, by decide, rfl, by
    simp only [rowMatches, first_bit_mask]; decide⟩
theorem frameIdle (t : FrameTick) : Statement (.frameIdle t) := fun _ =>
  ⟨⟨"FRAME.IDLE", 0x0#3, 0x4#3⟩, by decide, rfl, by decide⟩
theorem frameAm (t : FrameTick) : Statement (.frameAm t) := fun _ =>
  ⟨⟨"FRAME.AM", 0x4#3, 0x7#3⟩, by decide, rfl, by decide⟩
theorem frameFm (t : FrameTick) : Statement (.frameFm t) := fun _ =>
  ⟨⟨"FRAME.FM", 0x5#3, 0x7#3⟩, by decide, rfl, by decide⟩
theorem framePt (t : FrameTick) : Statement (.framePt t) := fun _ =>
  ⟨⟨"FRAME.PT", 0x6#3, 0x7#3⟩, by decide, rfl, by decide⟩

end Sys2Proof.Laws.RowMatch
end

