-- ==== Sys2Proof/Laws/Words.lean ====
section
/-! SUPPORT. The fields of a transaction word, read back from a composed one, and a word composed of its
own fields (spec 30 R100). -/

namespace Sys2Proof.Machine

@[simp] theorem twIsWrite_twOf (w : Bool) (a : Addr) (d : Word) : twIsWrite (twOf w a d) = w := by
  unfold twIsWrite twOf
  rw [BitVec.getLsbD_append, BitVec.getLsbD_append]
  simp

@[simp] theorem twAddr_twOf (w : Bool) (a : Addr) (d : Word) : twAddr (twOf w a d) = a := by
  unfold twAddr twOf
  ext i hi
  rw [BitVec.getElem_extractLsb', BitVec.getLsbD_append, BitVec.getLsbD_append]
  simp [hi]

@[simp] theorem twData_twOf (w : Bool) (a : Addr) (d : Word) : twData (twOf w a d) = d := by
  unfold twData twOf
  ext i hi
  rw [BitVec.getElem_extractLsb', BitVec.getLsbD_append]
  simp [hi]

/-- Every transaction word is composed of its fields. -/
theorem twOf_fields (tw : TransWord) : twOf (twIsWrite tw) (twAddr tw) (twData tw) = tw := by
  apply BitVec.eq_of_getLsbD_eq
  intro i hi
  unfold twIsWrite twAddr twData twOf
  rw [BitVec.getLsbD_append, BitVec.getLsbD_append]
  by_cases h1 : i < 32
  · simp [h1]
  · by_cases h2 : i - 32 < 7
    · simp [h1, h2, show 32 + (i - 32) = i by omega]
    · have h3 : i = 39 := by omega
      subst h3; simp

end Sys2Proof.Machine
end

