-- ==== Sys2Proof/Tests/Slice0.lean ====
section
/-! SUPPORT. The model's own tests. Expected results are the spec's: the encodings of 30 R104, the derived
vectors of 95, worked examples of 40 to 44. The frame vectors run the model's frame step over exact
rationals, with the coefficients 95 V40.4 prints (12 digits) standing for SYN_REF. -/

namespace Sys2Proof.Tests

open Sys2Proof Machine

/-! ### Ill-formed terms are refused by WellFormed -/

theorem test_wf_reserved_command : (Instr.cmdRsvd 3#32).wellFormed = false := by decide
theorem test_wf_refused_write : (Instr.wrRefused 0x10#7 0#32).wellFormed = false := by decide
theorem test_wf_refused_write_ok : (Instr.wrRefused 0x16#7 0#32).wellFormed = true := by decide

theorem test_wf_tick (l : List Word) (h : l.length = 65536) : (Instr.frameAm ⟨l⟩).wellFormed = false ∧
    (Instr.frameFm ⟨l⟩).wellFormed = false ∧ (Instr.framePt ⟨l⟩).wellFormed = false ∧
    (Instr.frameIdle ⟨l⟩).wellFormed = false := by
  simp [Instr.wellFormed, FrameTick.kIn, h]

/-! ### Decoding: words of 30 R104 and of 95 V44 -/

/-- The instruction the decoder reads from a bus word. -/
def fromBus (tw : TransWord) : Instr := decodeHost tw

theorem test_decode_center : fromBus 0x9044FA0000#40 = .wrCenter 0x44FA0000#32 := by decide
theorem test_decode_bandwidth : fromBus 0x91447A0000#40 = .wrBandwidth 0x447A0000#32 := by decide
theorem test_decode_notch : fromBus 0x9280000000#40 = .wrNotch 0x80000000#32 := by decide
theorem test_decode_volume : fromBus 0x933F000000#40 = .wrVolume 0x3F000000#32 := by decide
theorem test_decode_antenna : fromBus 0x9400000001#40 = .wrAntenna 1#32 := by decide
theorem test_decode_demod : fromBus 0x9500000002#40 = .wrDemod 2#32 := by decide
theorem test_decode_nop : fromBus 0x8800000000#40 = .cmdNop := by decide
theorem test_decode_start : fromBus 0x8800000001#40 = .cmdStart := by decide
theorem test_decode_stop : fromBus 0x8800000002#40 = .cmdStop := by decide
theorem test_decode_reset : fromBus 0x8800000003#40 = .cmdReset := by decide
theorem test_decode_rsvd : fromBus 0x88FFFFFFFF#40 = .cmdRsvd 0xFFFFFFFF#32 := by decide
theorem test_decode_w1c : fromBus 0x8900000050#40 = .w1cStatus 0x50#32 := by decide
theorem test_decode_refused : fromBus 0xC000000000#40 = .wrRefused 0x40#7 0#32 := by decide
theorem test_decode_refused_id : fromBus 0x8012345678#40 = .wrRefused 0#7 0x12345678#32 := by decide
theorem test_decode_rd : fromBus 0x7F00000000#40 = .rd 0x7F#7 := by decide
theorem test_decode_rd_data_ignored : fromBus 0x09DEADBEEF#40 = .rd 0x09#7 := by decide
theorem test_decode_idle : decodeTableWord 8 0 = some (.frameIdle ⟨[]⟩) := by decide
theorem test_decode_idle_mode : decodeTableWord 8 3 = some (.frameIdle ⟨[]⟩) := by decide
theorem test_decode_am : decodeTableWord 8 4 = some (.frameAm ⟨[]⟩) := by decide
theorem test_decode_fm : decodeTableWord 8 5 = some (.frameFm ⟨[]⟩) := by decide
theorem test_decode_pt : decodeTableWord 8 6 = some (.framePt ⟨[]⟩) := by decide
theorem test_decode_reserved : decodeTableWord 8 7 = none := by decide
theorem test_decode_table_word : decodeTableWord 40 0x9500000001 = some (.wrDemod 1#32) := by decide

theorem test_encode_center : encode (.wrCenter 0x44FA0000#32) = .host 0x9044FA0000#40 := by decide
theorem test_encode_rd : encode (.rd 0x1A#7) = .host 0x1A00000000#40 := by decide

/-! ### Values and setter legality: 95 V44.1 and the literals of 95 section 2 -/

theorem test_val_2000 : val 0x44FA0000#32 = 2000 := by decide +kernel
theorem test_val_minus_half : val 0xBF000000#32 = -1 / 2 := by decide +kernel
theorem test_val_3999_25 : val 0x4579F400#32 = 15997 / 4 := by decide +kernel
theorem test_round_tenth : roundB32 (1 / 10 : ℚ) = 0x3DCCCCCD#32 := by decide +kernel
theorem test_round_big : roundB32 (5 * 10 ^ 38 : ℚ) = 0x7F800000#32 := by decide +kernel

theorem test_center_legal :
    ([0x44FA0000#32, 0x00000001#32, 0x469C4000#32].map pos = [true, true, true]) ∧
    ([0#32, 0x80000000#32, 0xC4FA0000#32, 0x7F800000#32, 0x7FC00000#32].map pos =
      List.replicate 5 false) := by decide
theorem test_notch_legal :
    [0#32, 0x80000000#32, 0xBF800000#32, 0x457A0000#32].map nonneg = [true, true, false, true] := by decide
theorem test_volume_legal :
    [0x3F800000#32, 0x3F800001#32, 0x80000000#32, 0xBF000000#32, 0x40000000#32].map unitRange =
      [true, false, true, false, false] := by decide

/-! ### Host operations: one step on a small state -/

/-- The block of the state an instruction leads to. -/
def blockAfter (i : Instr) (s : State) : Block Value :=
  match exec i s with
  | .next t => t.block
  | .fault _ => s.block
  | .refused _ => s.block

/-- The machine after reset with some valid bits and sticky bits. -/
def stateWith (valid : BitVec 6) (sticky : Bool) : State :=
  { State.reset with
    block := { Block.reset with valid := valid, cfgErr := sticky, synErr := sticky, underrun := sticky, fault := sticky } }

theorem test_exec_center : (blockAfter (.wrCenter 0x44FA0000#32) State.reset).tuning.center = 0x44FA0000#32 ∧
    (blockAfter (.wrCenter 0x44FA0000#32) State.reset).valid = 0b000001#6 := by decide
theorem test_exec_center_zero : statusWord (blockAfter (.wrCenter 0#32) State.reset) = 0x10#32 ∧
    causeWord (blockAfter (.wrCenter 0#32) State.reset) = 0x100#32 := by decide
theorem test_exec_bandwidth_zero : causeWord (blockAfter (.wrBandwidth 0#32) State.reset) = 0x100#32 := by decide
theorem test_exec_notch_minus_zero :
    (blockAfter (.wrNotch 0x80000000#32) State.reset).tuning.notch = 0x80000000#32 := by decide
theorem test_exec_volume_two : causeWord (blockAfter (.wrVolume 0x40000000#32) State.reset) = 0x100#32 ∧
    (blockAfter (.wrVolume 0x40000000#32) State.reset).valid = 0#6 := by decide
theorem test_exec_antenna_two : causeWord (blockAfter (.wrAntenna 2#32) State.reset) = 0x200#32 := by decide
theorem test_exec_demod_high_bit : causeWord (blockAfter (.wrDemod 0x100#32) State.reset) = 0x200#32 ∧
    (blockAfter (.wrDemod 0x100#32) State.reset).valid = 0#6 := by decide
theorem test_exec_demod_pt : statusWord (blockAfter (.wrDemod 2#32) State.reset) = 0x00200000#32 := by decide
theorem test_exec_start_refused : statusWord (blockAfter .cmdStart State.reset) = 0x10#32 ∧
    causeWord (blockAfter .cmdStart State.reset) = 0x400#32 := by decide
theorem test_exec_start : statusWord (blockAfter .cmdStart (stateWith 0x3F#6 false)) = 0x003F0003#32 := by decide
theorem test_exec_stop :
    statusWord (blockAfter .cmdStop { stateWith 0x3F#6 false with block.run := true }) = 0x003F0002#32 := by decide
theorem test_exec_reset : blockAfter .cmdReset (stateWith 0x3F#6 true) = Block.reset := by decide
theorem test_exec_rsvd : causeWord (blockAfter (.cmdRsvd 7#32) State.reset) = 0x300#32 := by decide
theorem test_exec_w1c : statusWord (blockAfter (.w1cStatus 0x50#32) (stateWith 0#6 true)) = 0xA0#32 := by decide
theorem test_exec_w1c_none :
    blockAfter (.w1cStatus 0xFFFFFF0F#32) (stateWith 0#6 true) = (stateWith 0#6 true).block := by decide
theorem test_exec_refused : causeWord (blockAfter (.wrRefused 0x0A#7 0#32) State.reset) = 0x500#32 := by decide

/-- What a read of the machine returns. -/
def readOf (s : State) (a : Addr) : Option Word :=
  match exec (.rd a) s with
  | .next t => t.busRead
  | .fault _ => none
  | .refused _ => none

theorem test_rd_id : readOf State.reset 0#7 = some 0x414D4642#32 := by decide
theorem test_rd_unmapped : readOf State.reset 0x7F#7 = some 0#32 ∧ readOf State.reset 0x08#7 = some 0#32 := by decide

/-! ### The step -/

/-- The block and the bus after one step, when it answers a next state. -/
def stepOf (s : State) : Option State :=
  match step s with
  | .next t => some t
  | .fault _ => none
  | .refused _ => none

theorem test_step_bus :
    (stepOf { State.reset with inputs := [.bus 0x0000000000#40] }).map (fun t => (t.busRead, t.inputs)) =
      some (some 0x414D4642#32, []) := by decide
theorem test_step_idle_tick :
    stepOf { State.reset with inputs := [.tick ⟨[0x3F800000#32]⟩] } = some State.reset := by decide
theorem test_step_hwreset :
    stepOf { stateWith 0x3F#6 true with inputs := [.hwReset [⟨[0#32]⟩]] } = some State.reset := by decide
theorem test_step_reserved_selector :
    stepOf { State.reset with inputs := [.tick ⟨[]⟩], block.run := true, block.tuning.demod := 3#32 } = none := by
  decide
theorem test_step_fetch_word : (stepOf (State.reset.withFetchWord 40 0x9044FA0000)).map
    (fun t => t.block.tuning.center) = some 0x44FA0000#32 := by decide

/-! ### Frames over exact rationals, CFG_REF's parameters (00 R6) -/

/-- Exact rationals as NUM. Angles are measured in turns (`two_pi = 1`), and the cosine is exact at the
quarter turns, the only ones the vectors below use. -/
def numRat : Num ℚ where
  ofB32 := val
  toB32 x := roundB32 x
  ofNat k := k
  add a b := a + b
  sub a b := a - b
  mul a b := a * b
  div a b := a / b
  abs a := if a < 0 then -a else a
  max a b := if a < b then b else a
  min a b := if b < a then b else a
  lt a b := decide (a < b)
  le a b := decide (a ≤ b)
  cos t :=
    let q := t - (⌊t⌋ : ℚ)
    if q = 0 then 1 else if q = 1 / 2 then -1 else 0
  twoPi := 1

/-- 95 V40.4, the band-pass (1500, 2500). -/
def ratBpf : Bank ℚ 4 :=
  #v[⟨0.339496708718, 0, -0.339496708718, -0.634277242152, 0.757668737037⟩,
     ⟨0.297622842278, 0, -0.297622842278, -0.245959052070, 0.457946894035⟩,
     ⟨0.297622842278, 0, -0.297622842278, 0.245959052070, 0.457946894035⟩,
     ⟨0.339496708718, 0, -0.339496708718, 0.634277242152, 0.757668737037⟩]

/-- 95 V40.4, the notch at 1000 Hz. -/
def ratNotch : Bank ℚ 1 :=
  #v[⟨0.987078435461, -1.39593971055, 0.987078435461, -1.39593971055, 0.974156870922⟩]

/-- 95 V40.4, the low-pass. -/
def ratLpf : Bank ℚ 2 :=
  #v[⟨0.0885793562453, 0.177158712491, 0.0885793562453, -0.855397932775, 0.209715357757⟩,
     ⟨0.115258015230, 0.230516030460, 0.115258015230, -1.11302985416, 0.574061915084⟩]

/-- CFG_REF's parameters over rationals. -/
def cfgRat : Cfg ℚ where
  n := 8
  fsBits := 0x45FA0000#32
  flpBits := 0x447A0000#32
  gfmBits := 0x40800000#32
  num := numRat
  syn := { bpf := fun _ _ => some ratBpf, notch := fun _ => some ratNotch, lpf := some ratLpf }

/-- A running, tuned block: center, bandwidth, notch, volume, mode. -/
def ratBlock (c bw n v m : Word) : Block ℚ :=
  { Block.reset with tuning := ⟨c, bw, n, v, 0#32, m⟩, valid := 0x3F#6, run := true }

/-- The block and frame of a frame step. -/
def frameRat (mode : DemodMode) (samples : List Word) (b : Block ℚ) : Block ℚ × List Word :=
  frameStep cfgRat mode ⟨samples⟩ b

/-- 95 V42.2. -/
theorem test_frame_am : (frameRat .am (List.replicate 8 0x3F800000#32)
    (ratBlock 0x44FA0000#32 0x447A0000#32 0#32 0x3F000000#32 0#32)).2 =
    [0x3E5F3D6B#32, 0x3E87D955#32, 0x3E877979#32, 0x3E5C9396#32, 0x3E0D951B#32, 0x3D854ED7#32,
      0x3CA107FF#32, 0x3B37E574#32] := by decide +kernel

/-- 95 V42.7. -/
theorem test_frame_fm : (frameRat .fm [0x3F800000#32, 0#32, 0xBF800000#32, 0#32, 0x3F800000#32, 0#32, 0xBF800000#32, 0#32]
    (ratBlock 0x44FA0000#32 0x447A0000#32 0#32 0x3F800000#32 1#32)).2 =
    [0x3E80C1AB#32, 0x3EA98365#32, 0x3EAF2171#32, 0x3E8FA59D#32, 0x3E3663D6#32, 0x3DA81703#32,
      0x3CC60325#32, 0x3B5CB30F#32] := by decide +kernel

/-- 95 V42.10. -/
theorem test_frame_pt : (frameRat .passthrough [0#32, 0#32, 0#32, 0x3F800000#32, 0#32, 0#32, 0#32, 0#32]
    (ratBlock 0x44FA0000#32 0x447A0000#32 0x447A0000#32 0x3E800000#32 2#32)).2 =
    [0x399FF9D0#32, 0xBC5800BF#32, 0x3879E203#32, 0x3BF44C86#32, 0xB9A3350F#32, 0xBB3E5647#32,
      0xB867605C#32, 0x3A1C81A9#32] := by decide +kernel

/-- 95 V43.1: a short frame in pass-through with both stages bypassed. -/
theorem test_frame_short :
    let r := frameRat .passthrough [0x3F000000#32, 0x3F000000#32, 0xBF000000#32]
      (ratBlock 0x459C4000#32 0x42C80000#32 0#32 0x3F800000#32 2#32)
    r.2 = [0x3F000000#32, 0x3F000000#32, 0xBF000000#32, 0#32, 0#32, 0#32, 0#32, 0#32] ∧
      statusWord r.1 = 0x003F0467#32 ∧ r.1.underrunCount = 1#32 ∧ r.1.frameCount = 1#32 := by decide +kernel

/-- 95 V43.5 and V60.1's second half: a short, non-finite first frame. -/
theorem test_frame_input_fault :
    let r := frameRat .fm [0x7FC00000#32, 0#32] (ratBlock 0x459C4000#32 0x42C80000#32 0x457A0000#32 0x3F800000#32 1#32)
    r.2 = List.replicate 8 0#32 ∧ statusWord r.1 = 0x003F00C3#32 ∧ causeWord r.1 = 1#32 ∧
      r.1.spec.specValid = false ∧ r.1.faultCount = 1#32 := by decide +kernel

/-- 95 V43.6: the result overflows. -/
theorem test_frame_output_fault :
    let r := frameRat .fm [0#32, 0x7F61B1E6#32, 0#32, 0#32, 0#32, 0#32, 0#32, 0#32]
      (ratBlock 0x459C4000#32 0x42C80000#32 0#32 0x3F800000#32 1#32)
    r.2 = List.replicate 8 0#32 ∧ causeWord r.1 = 0x00010002#32 ∧ statusWord r.1 = 0x003F04A7#32 := by
  decide +kernel

/-- 95 V60.1's first half. -/
theorem test_frame_event_order :
    let r := frameRat .passthrough [0#32, 0#32] (ratBlock 0x459C4000#32 0x42C80000#32 0x457A0000#32 0x3F800000#32 2#32)
    statusWord r.1 &&& 0xF0#32 = 0x60#32 ∧ causeWord r.1 = 0x00030000#32 := by decide +kernel

/-- 95 V43.3: nine samples offered, the ninth a NaN that is not examined. -/
theorem test_frame_ninth_sample :
    (frameRat .passthrough (List.replicate 8 0x3F000000#32 ++ [0x7FC00000#32])
      (ratBlock 0x459C4000#32 0x42C80000#32 0#32 0x3F000000#32 2#32)).2 = List.replicate 8 0x3E800000#32 := by
  decide +kernel

/-- 95 V40.1, cutoffs and the degenerate cases. -/
theorem test_clamp :
    clamp cfgRat 2000 1000 = (1500, 2500) ∧ clamp cfgRat 100 400 = (1, 300) ∧
    clamp cfgRat 3900 400 = (3700, 3999) ∧ clamp cfgRat 5000 100 = (4950, 3999) := by decide +kernel

/-- 95 V40.3, the error masks. -/
theorem test_syn_mask :
    (synthesize cfgRat ⟨0x44FA0000#32, 0x447A0000#32, 0#32⟩).2 = 0b000#3 ∧
    (synthesize cfgRat ⟨0x459C4000#32, 0x42C80000#32, 0x80000000#32⟩).2 = 0b001#3 ∧
    (synthesize cfgRat ⟨0x44FA0000#32, 0x447A0000#32, 0x457A0000#32⟩).2 = 0b010#3 ∧
    (synthesize cfgRat ⟨0x459C4000#32, 0x42C80000#32, 0x457A0000#32⟩).2 = 0b011#3 := by decide +kernel

/-- 95 V40.4, words of the coefficient window after a synthesis, and an absent bank (P1). -/
theorem test_coefficient_window :
    let b := synth cfgRat ⟨0x44FA0000#32, 0x447A0000#32, 0#32⟩ Block.reset
    [0x43#7, 0x49#7, 0x53#7, 0x58#7, 0x60#7, 0x69#7, 0x6A#7].map (readReg cfgRat b) =
      [0xBF225FFE#32, 0x3EEA7804#32, 0x3F41F694#32, 0#32, 0x3DB56918#32, 0x3F12F5B9#32, 0#32] := by
  decide +kernel

/-- 95 V41.1, to six decimals. -/
theorem test_biquad : (biquad numRat ratLpf[0] [1, 0, 0, 0, 0, 0, 0, 0]).map (fun x => ⌊x * 1000000⌋) =
    [88579, 252929, 286358, 191906, 104103, 48803, 19914, 6800] := by decide +kernel

/-- 42 R186's example. -/
theorem test_diff : diff numRat [0, 1 / 4, 1 / 2, 1 / 4, 0, -1 / 4, -1 / 2, -1 / 4] =
    [0, 1 / 4, 1 / 4, -1 / 4, -1 / 4, -1 / 4, -1 / 4, 1 / 4] := by decide +kernel

/-- 42 R181's example: the carrier at 2000 Hz. -/
theorem test_carrier : carrier cfgRat 2000 = [1, 0, -1, 0, 1, 0, -1, 0] := by decide +kernel

/-- 95 V40.5's first steps: the same parameters do not synthesize again. -/
theorem test_synth_lazy :
    let b := synth cfgRat ⟨0x459C4000#32, 0x42C80000#32, 0#32⟩ Block.reset
    b.synErr = true ∧ synth cfgRat ⟨0x459C4000#32, 0x42C80000#32, 0#32⟩ (clearSticky 0x20#32 b) = clearSticky 0x20#32 b := by
  decide +kernel

/-! ### NUM_IEEE on binary32 itself: known single-precision results -/

/-- Binary32 as an IEEE format. -/
abbrev fmt32 : IeeeFormat := ⟨8, 23⟩

theorem test_ieee_add : ieeeAdd (f := fmt32) 0x3DCCCCCD#32 0x3E4CCCCD#32 = 0x3E99999A#32 := by decide +kernel
theorem test_ieee_div : ieeeDiv (f := fmt32) 0x3F800000#32 0x40400000#32 = 0x3EAAAAAB#32 := by decide +kernel
theorem test_ieee_mul_overflow : ieeeMul (f := fmt32) 0xFF000000#32 0x40000000#32 = 0xFF800000#32 := by decide +kernel
theorem test_ieee_sub_zero : ieeeSub (f := fmt32) 0x3F800000#32 0x3F800000#32 = 0#32 := by decide +kernel
theorem test_ieee_inf_times_zero : ieeeIsNan (f := fmt32) (ieeeMul (f := fmt32) 0x7F800000#32 0#32) = true := by
  decide +kernel
theorem test_ieee_widen_narrow :
    ieeeNarrow (f := ⟨11, 52⟩) (ieeeWiden (f := ⟨11, 52⟩) 0x80000001#32) = 0x80000001#32 := by decide +kernel
theorem test_ieee_double_one : (ieeeWiden (f := ⟨11, 52⟩) 0x3F800000#32) = 0x3FF0000000000000#64 := by decide +kernel

/-! ### Witnesses: for each statement with hypotheses, a state and operands that meet them together -/

/-- A stopped block with center 2000 Hz, bandwidth 1000 Hz, volume 1.0 and antenna TV written. -/
def partBlock {F : Type} : Block F :=
  { Block.reset with
    tuning := ⟨0x44FA0000#32, 0x447A0000#32, 0#32, 0x3F800000#32, 1#32, 0#32⟩, valid := 0b011011#6 }

/-- Nothing but the center frequency and the volume written. -/
def centerBlock {F : Type} : Block F :=
  { Block.reset with
    tuning := ⟨0x44FA0000#32, 0#32, 0#32, 0x3F800000#32, 0#32, 0#32⟩, valid := 0b001001#6 }

/-- A running block, all six registers written, with refused and short frames behind it. -/
def runBlock {F : Type} : Block F :=
  { (partBlock : Block F) with
    valid := 0b111111#6, run := true, cfgErr := true, cfgCause := 5#4, fault := true, faultCause := 2#4 }

def partState : State := { State.reset with block := partBlock }
def runState : State := { State.reset with block := runBlock }

theorem witness_partBlock {F : Type} (C : Cfg F) : BlockInv C partBlock where
  written_legal := by show ∀ i : Fin 6, _; simp only [partBlock]; decide
  unwritten_zero := by show ∀ i : Fin 6, _; simp only [partBlock]; decide
  run_tuned h := nomatch h
  spec_current h := nomatch h
  spec_empty _ := ⟨rfl, rfl, rfl⟩
  cfg_cause := ⟨Nat.zero_le _, nofun⟩
  fault_cause := ⟨Nat.zero_le _, nofun⟩

theorem witness_centerBlock {F : Type} (C : Cfg F) : BlockInv C centerBlock where
  written_legal := by show ∀ i : Fin 6, _; simp only [centerBlock]; decide
  unwritten_zero := by show ∀ i : Fin 6, _; simp only [centerBlock]; decide
  run_tuned h := nomatch h
  spec_current h := nomatch h
  spec_empty _ := ⟨rfl, rfl, rfl⟩
  cfg_cause := ⟨Nat.zero_le _, nofun⟩
  fault_cause := ⟨Nat.zero_le _, nofun⟩

theorem witness_runBlock {F : Type} (C : Cfg F) : BlockInv C runBlock where
  written_legal := by show ∀ i : Fin 6, _; simp only [runBlock, partBlock]; decide
  unwritten_zero := by show ∀ i : Fin 6, _; simp only [runBlock, partBlock]; decide
  run_tuned _ := rfl
  spec_current h := nomatch h
  spec_empty _ := ⟨rfl, rfl, rfl⟩
  cfg_cause := by simp [runBlock]
  fault_cause := by simp [runBlock]

/-- A running block whose FilterSpec is the synthesis of its registers (all stages, CFG_REF's numbers). -/
theorem witness_synthesized : BlockInv cfgRat (synth cfgRat (tagOf (runBlock : Block ℚ).tuning) runBlock) where
  written_legal := by decide +kernel
  unwritten_zero := by decide +kernel
  run_tuned := by decide +kernel
  spec_current := by decide +kernel
  spec_empty := by decide +kernel
  cfg_cause := by decide +kernel
  fault_cause := by decide +kernel

theorem witness_synthesized_current :
    let b := synth cfgRat (tagOf (runBlock : Block ℚ).tuning) runBlock
    b.spec.specValid = true ∧ b.spec.tag = tagOf b.tuning ∧ b.spec.banks.bpf = some ratBpf := by
  decide +kernel

/-- FilterSpec not current: absent, or tagged with other parameters. And the synthesis of a center above the
band, which has no band-pass: mask 1, SYNERR set. -/
theorem witness_stale :
    let b := ratBlock 0x459C4000#32 0x42C80000#32 0#32 0x3F800000#32 1#32
    let c := synth cfgRat ⟨0x44FA0000#32, 0x447A0000#32, 0x447A0000#32⟩ b
    b.spec.specValid = false ∧ c.spec.specValid = true ∧ c.spec.tag ≠ tagOf c.tuning ∧
    allFinite (paddedFrame cfgRat.n ⟨[]⟩) = true ∧ allFinite (paddedFrame cfgRat.n ⟨[0x7F800000#32]⟩) = false ∧
    (synthesize cfgRat (tagOf b.tuning)).2 = 1#3 ∧ b.synErr = false ∧
    (synth cfgRat (tagOf b.tuning) b).synErr = true := by
  decide +kernel

/-- `BlockInv` of two blocks that agree on center, bandwidth, notch and volume and differ elsewhere; and
of two that differ in the bandwidth. -/
theorem witness_output_fields (C : Cfg ℚ) :
    BlockInv C partBlock ∧ BlockInv C runBlock ∧ BlockInv C centerBlock ∧
    (partBlock : Block ℚ).tuning.notch = (runBlock : Block ℚ).tuning.notch ∧
    (partBlock : Block ℚ).tuning.bandwidth = (runBlock : Block ℚ).tuning.bandwidth ∧
    (partBlock : Block ℚ).valid ≠ (runBlock : Block ℚ).valid ∧
    (partBlock : Block ℚ).tuning.volume = (centerBlock : Block ℚ).tuning.volume ∧
    (partBlock : Block ℚ).tuning.bandwidth ≠ (centerBlock : Block ℚ).tuning.bandwidth :=
  ⟨witness_partBlock C, witness_runBlock C, witness_centerBlock C, by decide⟩

theorem witness_state_inv : StateInv partState ∧ StateInv runState ∧ finite runState.block.tuning.volume = true :=
  ⟨⟨witness_partBlock _, nofun⟩, ⟨witness_runBlock _, nofun⟩, by decide⟩

/-- A state with a pending event that meets the invariant, and the step it takes. -/
theorem witness_step_inv :
    StateInv { runState with inputs := [.bus 0x8800000002#40] } ∧
    step { runState with inputs := [.bus 0x8800000002#40] } = .next { runState with block.run := false } :=
  ⟨⟨witness_runBlock _, nofun⟩, rfl⟩

theorem witness_well_formed : (Instr.cmdRsvd 4#32).wellFormed = true ∧ (Instr.frameFm ⟨[0#32]⟩).wellFormed = true ∧
    (Instr.wrRefused 0x0F#7 0#32).wellFormed = true ∧ (Instr.wrRefused 0x16#7 0#32).wellFormed = true := by decide

theorem witness_write_and_read_words : twIsWrite 0x8000000000#40 = true ∧ twIsWrite 0x7FFFFFFFFF#40 = false := by
  decide

/-- A word that three rows match. -/
theorem witness_rows : (hostRows.filter fun r => rowMatches r 0x8800000000#40).map OpRow.mnemonic =
    ["CMD.NOP", "CMD.RSVD", "WR.REFUSED"] := by decide

theorem witness_idle_selectors : [0#3, 1#3, 2#3, 3#3].all (fun sel => !sel.getLsbD 2) = true := by decide

theorem witness_decoded : decode (.frame 5#3 ⟨[0#32]⟩) = .ok (.frameFm ⟨[0#32]⟩) ∧
    (⟨[0#32]⟩ : FrameTick).kIn < 2 ^ 16 := by decide

/-- The selectors the engine forms in each mode of a running block, and while stopped. -/
theorem witness_selectors :
    selector false runState.block.tuning = 0#3 ∧ selector true runState.block.tuning = 4#3 ∧
    selector true { runState.block.tuning with demod := 1#32 } = 5#3 ∧
    selector true { runState.block.tuning with demod := 2#32 } = 6#3 ∧
    selector true { runState.block.tuning with demod := 3#32 } = 7#3 ∧
    selector false { runState.block.tuning with demod := 3#32 } = 3#3 := by decide

theorem witness_tick_decodes :
    decode (.frame (selector runState.block.run runState.block.tuning) ⟨[]⟩) = .ok (.frameAm ⟨[]⟩) := by decide

/-- A legal and an illegal value of each tuning register, at the ends of its range. -/
theorem witness_legal_tuning :
    legalTuning 0 0x00000001#32 = true ∧ legalTuning 0 0#32 = false ∧
    legalTuning 1 0x7F7FFFFF#32 = true ∧ legalTuning 1 0x7F800000#32 = false ∧
    legalTuning 2 0x80000000#32 = true ∧ legalTuning 2 0x80000001#32 = false ∧
    legalTuning 3 0x3F800000#32 = true ∧ legalTuning 3 0x3F800001#32 = false ∧
    legalTuning 4 1#32 = true ∧ legalTuning 4 2#32 = false ∧
    legalTuning 5 2#32 = true ∧ legalTuning 5 3#32 = false := by decide

theorem witness_ordered_patterns : finite 0#32 = true ∧ finite 0x7F7FFFFF#32 = true ∧
    (0#32).msb = false ∧ (0x7F7FFFFF#32).msb = false := by decide

/-- Refused addresses beside the writable ones, and their words. -/
theorem witness_refused : [0x07#7, 0x0A#7, 0x0F#7, 0x16#7, 0x7F#7].map (fun a => decodeHost (twOf true a 5#32)) =
    [0x07#7, 0x0A#7, 0x0F#7, 0x16#7, 0x7F#7].map (fun a => .wrRefused a 5#32) := by decide

/-- The register map at the ends of its unmapped ranges, and at the first and last window words. -/
theorem witness_unmapped :
    ([0x06#7, 0x07#7, 0x08#7, 0x0E#7, 0x0F#7, 0x16#7, 0x17#7, 0x1B#7, 0x3F#7, 0x54#7, 0x57#7, 0x5D#7, 0x5F#7,
      0x6A#7, 0x7F#7].map
        (readReg cfgRat (synth cfgRat ⟨0x44FA0000#32, 0x447A0000#32, 0x447A0000#32⟩ runBlock))).all (· == 0#32) = true ∧
    ([0x40#7, 0x53#7, 0x58#7, 0x5C#7, 0x60#7, 0x69#7].map
        (readReg cfgRat (synth cfgRat ⟨0x44FA0000#32, 0x447A0000#32, 0x447A0000#32⟩ runBlock))).any (· == 0#32) = false := by
  decide +kernel

theorem witness_clear_mask : (0x10#32).getLsbD 4 = true ∧ (0x80#32).getLsbD 7 = true := by decide

theorem witness_empty_tick (n : Nat) : allFinite (paddedFrame n ⟨[]⟩) = true := by
  simp [paddedFrame, FrameTick.kIn, allFinite, finite, expField]

/-- An infinity as the first sample is seen, whatever N a legal configuration has. -/
theorem witness_nonfinite_tick : allFinite (paddedFrame Config.cfg.n ⟨[0x7F800000#32]⟩) = false := by
  have h := Config.cfg_legal.admissible.n_range
  have e : min 1 Config.cfg.n = 1 := by omega
  simp [paddedFrame, FrameTick.kIn, e, allFinite, finite, expField]

theorem witness_output_fault :
    let t : FrameTick := ⟨[0#32, 0x7F61B1E6#32, 0#32, 0#32, 0#32, 0#32, 0#32, 0#32]⟩
    let b := ratBlock 0x459C4000#32 0x42C80000#32 0#32 0x3F800000#32 1#32
    allFinite (paddedFrame cfgRat.n t) = true ∧
    allFinite (framePatterns cfgRat .fm b.tuning (synth cfgRat (tagOf b.tuning) (noteUnderrun cfgRat t b)).spec.banks
      (paddedFrame cfgRat.n t)) = false := by decide +kernel

/-- Short and full ticks, and two different ticks that agree on their first N samples. -/
theorem witness_tick_counts :
    (⟨[]⟩ : FrameTick).kIn < Config.cfg.n ∧ Config.cfg.n ≤ (⟨List.replicate Config.cfg.n 0#32⟩ : FrameTick).kIn ∧
    (List.replicate Config.cfg.n 0#32).take Config.cfg.n =
      (List.replicate Config.cfg.n 0#32 ++ [1#32]).take Config.cfg.n := by
  have h := Config.cfg_legal.admissible.n_range
  refine ⟨?_, ?_, ?_⟩
  · show 0 < Config.cfg.n; omega
  · simp [FrameTick.kIn]
  · simp

theorem witness_kept_register : mayChange (.wrCenter 0x3F800000#32) 0x11#7 = false ∧
    mayChange (.frameAm ⟨[]⟩) 0x15#7 = false ∧ mayChange .cmdStop 0x0A#7 = false ∧
    ∃ t, exec (.wrCenter 0x3F800000#32) partState = .next t := ⟨by decide, by decide, by decide, _, rfl⟩

theorem witness_host_word : decodeHost 0x8800000002#40 ≠ .cmdReset ∧
    exec (decodeHost 0x8800000002#40) runState = .next { runState with block.run := false } := ⟨by decide, rfl⟩

theorem witness_run_changes :
    runState.block.run = true ∧ (blockAfter .cmdStop runState).run = false ∧
    (blockAfter .cmdStart { runState with block.run := false }).run = true := by decide

theorem witness_tuning_changes :
    readTuning (blockAfter (.wrNotch 0x447A0000#32) partState).tuning 2 ≠ readTuning partState.block.tuning 2 := by
  decide

/-- An admissible configuration in which the pattern of 1.0 stands for ONE, both stages bypassed, FilterSpec
current, volume 1.0, and a non-zero first sample. -/
theorem witness_bypassed :
    let b : Block Value :=
      { (runBlock : Block Value) with spec := ⟨true, tagOf (runBlock : Block Value).tuning, ⟨none, none, none⟩⟩ }
    Config.sample.Admissible ∧ Config.sample.num.ofB32 0x3F800000#32 = Config.sample.one ∧
    allFinite (paddedFrame Config.sample.n ⟨[0x3F000000#32]⟩) = true ∧
    b.spec.specValid = true ∧ b.spec.tag = tagOf b.tuning ∧ b.spec.banks.bpf = none ∧
    b.spec.banks.notch = none ∧ b.tuning.volume = 0x3F800000#32 ∧
    (paddedFrame Config.sample.n ⟨[0x3F000000#32]⟩)[0]? = some 0x3F000000#32 ∧ val 0x3F000000#32 ≠ 0 :=
  ⟨Config.sample_admissible, rfl, by decide, rfl, rfl, rfl, rfl, rfl, by decide, by decide +kernel⟩

theorem witness_am_carrier_finite : Config.sample.Admissible ∧ BlockInv Config.sample partBlock ∧
    finite (partBlock : Block Value).tuning.volume = true ∧ DemodMode.fm ≠ .am ∧
    (∀ c ∈ carrier Config.sample (Config.sample.num.ofB32 (partBlock : Block Value).tuning.center),
      Config.sample.num.isFinite c = true) ∧
    Config.sample.num.isFinite (Config.sample.num.mul Config.sample.num.twoPi ⟨0⟩) = true :=
  ⟨Config.sample_admissible, witness_partBlock _, by decide, by decide, by decide +kernel, by decide +kernel⟩

theorem witness_zero_frame :
    bankFinite Config.sampleNum (Vector.replicate 4 Config.sampleSection) = true ∧
    (∀ x ∈ [(⟨0⟩ : Value), ⟨0x80000000⟩], Config.sampleZero x) := by
  refine ⟨by decide +kernel, ?_⟩
  unfold Config.sampleZero Config.samplePattern; decide +kernel

theorem witness_equal_lengths : ([1, 2] : List ℝ).length = ([3, 4] : List ℝ).length := rfl

theorem witness_band_edges : (0 : ℝ) < 1500 ∧ (1500 : ℝ) < 2500 ∧ (2500 : ℝ) < 8000 / 2 := by norm_num

/-- Frequencies in the domain, for Q = 30 and for Q = 1/2 below and at the end of the stable range. -/
theorem witness_low_pass_and_notch :
    (0 : ℝ) < 1000 ∧ (1000 : ℝ) < 8000 / 2 ∧ (0 : ℝ) < 30 ∧ (1000 : ℝ) < 30 * (8000 / 2) ∧
    (1000 : ℝ) < 1 / 2 * (8000 / 2) ∧ ¬ (2000 : ℝ) < 1 / 2 * (8000 / 2) := by norm_num

/-- Parameters that R5 allows: CFG_REF's with a quality factor of 1/2, at the largest frame size. -/
theorem witness_parameters : (1 ≤ 65535 ∧ 65535 ≤ 65535) ∧
    (finite 0x45FA0000#32 = true ∧ 4 < val 0x45FA0000#32) ∧
    (finite 0x447A0000#32 = true ∧ 0 < val 0x447A0000#32 ∧ val 0x447A0000#32 < val 0x45FA0000#32 / 2) ∧
    (finite 0x3F000000#32 = true ∧ 0 < val 0x3F000000#32) ∧
    (finite 0x40800000#32 = true ∧ 0 < val 0x40800000#32) := by decide +kernel

/-- Binary32 itself is wide enough, and a constant cosine maps the zeros to one. -/
theorem witness_ieee : ieeeWideEnough fmt32 ∧
    ∀ z : IeeeValue fmt32, ieeeIsZero z = true →
      (fun _ => (numIeee fmt32 id 0).ofNat 1) z = (numIeee fmt32 (fun _ => (numIeee fmt32 id 0).ofNat 1) 0).ofNat 1 :=
  ⟨by unfold ieeeWideEnough; decide, fun _ _ => rfl⟩

end Sys2Proof.Tests
end

section
/-! Magnitudes of a binary format and their rounding. A pattern without its sign is a number whose magnitude, in
units of the smallest subnormal, grows strictly with it; a magnitude of the format rounds to its own pattern
(spec 00 R8, R12). -/

namespace Sys2Proof.Machine

/-- The magnitude of the pattern `bits`, without sign, in units of the format's smallest subnormal. -/
def magnitude (fracBits bits : ℕ) : ℕ :=
  if bits / 2 ^ fracBits = 0 then bits % 2 ^ fracBits
  else (2 ^ fracBits + bits % 2 ^ fracBits) * 2 ^ (bits / 2 ^ fracBits - 1)

section Magnitude

variable (fb : ℕ)

/-- Every pattern is `k · 2 ^ fb + s` with an exponent `k` and a significand `s`, hidden bit included. -/
theorem exists_significand (bits : ℕ) :
    ∃ k s, bits = k * 2 ^ fb + s ∧ (k = 0 ∨ 2 ^ fb ≤ s) ∧ s < 2 ^ (fb + 1) := by
  have hm := Nat.mod_lt bits (Nat.two_pow_pos fb)
  have split := Nat.div_add_mod bits (2 ^ fb)
  rw [pow_succ]
  cases he : bits / 2 ^ fb with
  | zero => exact ⟨0, bits % 2 ^ fb, by rw [he] at split; omega, .inl rfl, by omega⟩
  | succ k =>
    refine ⟨k, 2 ^ fb + bits % 2 ^ fb, ?_, .inr (by omega), by omega⟩
    rw [he] at split
    linarith

theorem magnitude_fields (e : ℕ) {m : ℕ} (hm : m < 2 ^ fb) :
    magnitude fb (e * 2 ^ fb + m) = if e = 0 then m else (2 ^ fb + m) * 2 ^ (e - 1) := by
  have div : (e * 2 ^ fb + m) / 2 ^ fb = e := by
    rw [mul_comm, Nat.mul_add_div (Nat.two_pow_pos fb), Nat.div_eq_of_lt hm, add_zero]
  have mod : (e * 2 ^ fb + m) % 2 ^ fb = m := by
    rw [mul_comm, Nat.mul_add_mod, Nat.mod_eq_of_lt hm]
  rw [magnitude, div, mod]

/-- The magnitude of an exponent and a significand; the significand may be the next power of two. -/
theorem magnitude_significand {k s : ℕ} (hk : k = 0 ∨ 2 ^ fb ≤ s) (hs : s ≤ 2 ^ (fb + 1)) :
    magnitude fb (k * 2 ^ fb + s) = s * 2 ^ k := by
  rw [pow_succ] at hs
  by_cases h0 : s < 2 ^ fb
  · obtain rfl : k = 0 := by omega
    rw [magnitude_fields fb 0 h0, if_pos rfl, pow_zero, mul_one]
  by_cases h1 : s < 2 * 2 ^ fb
  · obtain ⟨m, rfl⟩ := Nat.exists_eq_add_of_le (not_lt.mp h0)
    rw [← add_assoc, ← Nat.succ_mul, magnitude_fields fb _ (by omega)]
    rfl
  · obtain rfl : s = 2 * 2 ^ fb := by omega
    rw [← add_mul, ← add_zero ((k + 2) * 2 ^ fb), magnitude_fields fb _ (Nat.two_pow_pos fb),
      if_neg (by omega), show k + 2 - 1 = k + 1 from rfl]
    ring

theorem magnitude_strictMono : StrictMono (magnitude fb) := by
  refine strictMono_nat_of_lt_succ fun bits => ?_
  obtain ⟨k, s, rfl, hk, hs⟩ := exists_significand fb bits
  rw [magnitude_significand fb hk hs.le, add_assoc, magnitude_significand fb (by omega) hs]
  exact Nat.mul_lt_mul_of_pos_right s.lt_add_one (Nat.two_pow_pos k)

@[simp] theorem magnitude_zero : magnitude fb 0 = 0 := by simp [magnitude]

theorem magnitude_eq_zero_iff {bits : ℕ} : magnitude fb bits = 0 ↔ bits = 0 := by
  simpa using (magnitude_strictMono fb).injective.eq_iff (a := bits) (b := 0)

/-- A significand of the format's width times a power of two is a magnitude of the format. -/
theorem exists_magnitude_eq {s : ℕ} (hs : s < 2 ^ (fb + 1)) (e : ℕ) : ∃ bits, magnitude fb bits = s * 2 ^ e := by
  induction e generalizing s with
  | zero => exact ⟨0 * 2 ^ fb + s, magnitude_significand fb (.inl rfl) hs.le⟩
  | succ e ih =>
    by_cases h : 2 ^ fb ≤ s
    · exact ⟨_, magnitude_significand fb (.inr h) hs.le⟩
    · obtain ⟨bits, hb⟩ := ih (s := s * 2) (by rw [pow_succ]; omega)
      exact ⟨bits, by rw [hb, pow_succ']; ring⟩

section Rounding

variable {K : Type} [Field K] [LinearOrder K] [IsStrictOrderedRing K] [FloorSemiring K]

theorem roundEven_natCast (n : ℕ) : roundEven (n : K) = n := by
  simp [roundEven]

/-- The exponent that rounding finds is the pattern's. -/
theorem log2_significand {k s : ℕ} (hk : k = 0 ∨ 2 ^ fb ≤ s) (hs : s < 2 ^ (fb + 1)) :
    Nat.log2 (s * 2 ^ k) - fb = k := by
  by_cases h0 : s = 0
  · obtain rfl : k = 0 := hk.resolve_right (by have := Nat.two_pow_pos fb; omega)
    simp [h0]
  have ne : s * 2 ^ k ≠ 0 := mul_ne_zero h0 (Nat.two_pow_pos k).ne'
  have upper : Nat.log2 (s * 2 ^ k) < fb + 1 + k := by
    rw [Nat.log2_lt ne, pow_add]
    exact Nat.mul_lt_mul_of_pos_right hs (Nat.two_pow_pos k)
  obtain rfl | hk := hk
  · omega
  · have lower : fb + k ≤ Nat.log2 (s * 2 ^ k) := by
      rw [Nat.le_log2 ne, pow_add]
      exact Nat.mul_le_mul_right _ hk
    omega

/-- A magnitude of the format rounds to its own pattern, below the pattern of infinity. -/
theorem roundMag_magnitude {inf bits : ℕ} (h : bits < inf) :
    roundMag fb inf (magnitude fb bits : K) = bits := by
  obtain ⟨k, s, rfl, hk, hs⟩ := exists_significand fb bits
  have quotient : ((s * 2 ^ k : ℕ) : K) / 2 ^ k = (s : ℕ) := by
    push_cast
    exact mul_div_cancel_right₀ _ (pow_ne_zero _ two_ne_zero)
  simp only [roundMag, magnitude_significand fb hk hs.le, Nat.floor_natCast, log2_significand fb hk hs, quotient,
    roundEven_natCast]
  exact if_neg (not_le.mpr h)

end Rounding

end Magnitude

/-! ### Sign and magnitude of a pattern -/

section Ieee

variable {f : IeeeFormat}

theorem ieeeBits_lt (x : IeeeValue f) : ieeeBits x < 2 ^ (f.expBits + f.fracBits) :=
  Nat.mod_lt _ (Nat.two_pow_pos _)

theorem ieeeMag_eq (x : IeeeValue f) : ieeeMag x = magnitude f.fracBits (ieeeBits x) := rfl

theorem ieeeOf_toNat (neg : Bool) {bits : ℕ} (h : bits < 2 ^ (f.expBits + f.fracBits)) :
    (ieeeOf neg bits : IeeeValue f).toNat = (if neg then 2 ^ (f.expBits + f.fracBits) else 0) + bits := by
  rw [ieeeOf, BitVec.toNat_ofNat, Nat.mod_eq_of_lt]
  rw [Nat.pow_add' 2 1]
  split <;> omega

@[simp] theorem ieeeBits_ieeeOf (neg : Bool) {bits : ℕ} (h : bits < 2 ^ (f.expBits + f.fracBits)) :
    ieeeBits (ieeeOf neg bits : IeeeValue f) = bits := by
  rw [ieeeBits, ieeeOf_toNat neg h]
  cases neg <;> simp [Nat.mod_eq_of_lt h]

@[simp] theorem ieeeNegative_ieeeOf (neg : Bool) {bits : ℕ} (h : bits < 2 ^ (f.expBits + f.fracBits)) :
    ieeeNegative (ieeeOf neg bits : IeeeValue f) = neg := by
  rw [ieeeNegative, ieeeOf_toNat neg h]
  cases neg <;> simp [h]

/-- A pattern is its sign and its other bits. -/
theorem ieeeOf_fields (x : IeeeValue f) : ieeeOf (ieeeNegative x) (ieeeBits x) = x := by
  apply BitVec.eq_of_toNat_eq
  rw [ieeeOf_toNat _ (ieeeBits_lt x), ieeeNegative, ieeeBits]
  have := x.isLt
  have two : 2 ^ (1 + (f.expBits + f.fracBits)) = 2 * 2 ^ (f.expBits + f.fracBits) := by rw [pow_add, pow_one]
  by_cases h : 2 ^ (f.expBits + f.fracBits) ≤ x.toNat
  · simp only [h, decide_true, if_true, Nat.mod_eq_sub_mod h]
    rw [Nat.mod_eq_of_lt (by omega)]
    omega
  · simp only [h, decide_false, Bool.false_eq_true, if_false, zero_add]
    exact Nat.mod_eq_of_lt (by omega)

theorem ieeeInfBits_lt : ieeeInfBits f < 2 ^ (f.expBits + f.fracBits) := by
  rw [ieeeInfBits, pow_add]
  exact Nat.mul_lt_mul_of_pos_right (Nat.sub_lt (Nat.two_pow_pos _) one_pos) (Nat.two_pow_pos _)

end Ieee

/-! ### Binary32 words -/

/-- The format of a register word. -/
abbrev binary32 : IeeeFormat := ⟨8, 23⟩

/-- A word without its sign. -/
abbrev wordBits (w : Word) : ℕ := ieeeBits (f := binary32) w

theorem finite_iff (w : Word) : finite w = true ↔ wordBits w < 0x7F800000 := by
  have := w.isLt
  simp only [finite, bne_iff_ne, ne_eq, ← BitVec.toNat_inj, expField, BitVec.extractLsb'_toNat,
    Nat.shiftRight_eq_div_pow, wordBits, ieeeBits]
  norm_num
  omega

theorem isZero_iff (w : Word) : isZero w = true ↔ wordBits w = 0 := by
  simp [isZero, ← BitVec.toNat_inj, ieeeBits]

theorem msb_eq_ieeeNegative (w : Word) : w.msb = ieeeNegative (f := binary32) w := by
  rw [BitVec.msb_eq_decide]; rfl

theorem magUnits_eq (w : Word) : magUnits w = magnitude 23 (wordBits w) := by
  have e : (expField w).toNat = wordBits w / 2 ^ 23 := by
    simp only [expField, BitVec.extractLsb'_toNat, Nat.shiftRight_eq_div_pow, wordBits, ieeeBits]
    norm_num
    omega
  have m : (fracField w).toNat = wordBits w % 2 ^ 23 := by
    simp only [fracField, BitVec.extractLsb'_toNat, wordBits, ieeeBits]
    norm_num
  simp only [magUnits, magnitude, ← BitVec.toNat_inj, e, m, BitVec.toNat_ofNat, Nat.zero_mod]

theorem ieeeOf_word (w : Word) : (ieeeOf (f := binary32) w.msb (wordBits w) : Word) = w := by
  rw [msb_eq_ieeeNegative]; exact ieeeOf_fields (f := binary32) w

theorem val_eq_zero_iff (w : Word) : val w = 0 ↔ wordBits w = 0 := by
  rw [← magnitude_eq_zero_iff 23, ← magUnits_eq, val]
  cases w.msb <;> simp

/-- The magnitude of a finite word is below that of infinity's pattern. -/
theorem magUnits_lt {w : Word} (h : finite w = true) : magUnits w < 2 ^ 277 := by
  have inf : magnitude 23 0x7F800000 = 2 ^ 277 := by decide +kernel
  rw [magUnits_eq, ← inf]
  exact magnitude_strictMono 23 ((finite_iff w).mp h)

end Sys2Proof.Machine
end

section
/-! Zero frames. With a lawful arithmetic every step of the datapath maps zeros to zeros, so an empty tick
emits zero patterns (spec 00 R11; 41 R162; 42 R181, R190 to R192). -/

namespace Sys2Proof.Machine

section ZeroFrames

variable {F : Type} {M : Num F} {Z : F → Prop}

/-- Every value of a frame is in the set of zeros. -/
abbrev ZeroFrame (Z : F → Prop) (v : List F) : Prop := ∀ x ∈ v, Z x

/-! ### The filters -/

theorem biquadFrom_zeroFrame (hM : M.Lawful Z) (sec : Biquad F)
    (hsec : ∀ c ∈ sec.coeffs, M.isFinite c = true) {s1 s2 : F} (h1 : Z s1) (h2 : Z s2) {v : List F}
    (hv : ZeroFrame Z v) : ZeroFrame Z (biquadFrom M sec s1 s2 v) := by
  have scaled : ∀ c ∈ sec.coeffs, ∀ x, Z x → Z (M.mul c x) := fun c hc x hx => hM.np1_right x c hx (hsec c hc)
  induction v generalizing s1 s2 with
  | nil => exact fun _ h => absurd h List.not_mem_nil
  | cons x xs ih =>
    obtain ⟨hx, hxs⟩ := List.forall_mem_cons.mp hv
    have hw : Z (M.add (M.mul sec.b0 x) s1) := hM.np2_add _ _ (scaled _ (by simp) x hx) h1
    refine List.forall_mem_cons.mpr ⟨hw, ih ?_ ?_ hxs⟩
    · exact hM.np2_add _ _ (hM.np2_sub _ _ (scaled _ (by simp) x hx) (scaled _ (by simp) _ hw)) h2
    · exact hM.np2_sub _ _ (scaled _ (by simp) x hx) (scaled _ (by simp) _ hw)

theorem bankFinite_iff {k : Nat} (c : Bank F k) :
    bankFinite M c = true ↔ ∀ sec ∈ c.toList, ∀ a ∈ sec.coeffs, M.isFinite a = true := by
  simp only [bankFinite, List.all_eq_true]

theorem cascade_zeroFrame (hM : M.Lawful Z) {k : Nat} {c : Bank F k} (hc : bankFinite M c = true) {v : List F}
    (hv : ZeroFrame Z v) : ZeroFrame Z (cascade M c v) :=
  List.foldlRecOn c.toList _ hv fun _ hu sec hsec =>
    biquadFrom_zeroFrame hM sec ((bankFinite_iff c).mp hc sec hsec) hM.np1_zero hM.np1_zero hu

/-- The bank is absent or has finite coefficients only. -/
abbrev BankOk (M : Num F) {k : Nat} (bank : Option (Bank F k)) : Prop := ∀ c, bank = some c → bankFinite M c = true

theorem zeroPhase_zeroFrame (hM : M.Lawful Z) {k : Nat} {bank : Option (Bank F k)} (hb : BankOk M bank)
    {v : List F} (hv : ZeroFrame Z v) : ZeroFrame Z (zeroPhase M bank v) := by
  cases bank with
  | none => exact hv
  | some c =>
    have pass : ∀ u, ZeroFrame Z u → ZeroFrame Z (cascade M c u).reverse := fun u hu x hx =>
      cascade_zeroFrame hM (hb c rfl) hu x (List.mem_reverse.mp hx)
    exact pass _ (pass _ hv)

/-! ### The demodulator's primitives -/

theorem mix_zeroFrame (hM : M.Lawful Z) {v c : List F} (hv : ZeroFrame Z v)
    (hc : ∀ x ∈ c, M.isFinite x = true) : ZeroFrame Z (mix M v c) := by
  intro y hy
  obtain ⟨i, hi, rfl⟩ := List.mem_iff_getElem.mp hy
  simp only [mix, List.getElem_zipWith]
  exact hM.np1_left _ _ (hv _ (List.getElem_mem _)) (hc _ (List.getElem_mem _))

theorem rectify_zeroFrame (hM : M.Lawful Z) {v : List F} (hv : ZeroFrame Z v) : ZeroFrame Z (rectify M v) :=
  List.forall_mem_map.mpr fun x hx => hM.np2_abs x (hv x hx)

theorem diff_zeroFrame (hM : M.Lawful Z) {v : List F} (hv : ZeroFrame Z v) : ZeroFrame Z (diff M v) := by
  cases v with
  | nil => exact hv
  | cons x xs =>
    refine List.forall_mem_cons.mpr ⟨hM.np1_zero, fun y hy => ?_⟩
    obtain ⟨i, hi, rfl⟩ := List.mem_iff_getElem.mp hy
    rw [List.getElem_zipWith]
    exact hM.np2_sub _ _ (hv _ (List.mem_cons_of_mem _ (List.getElem_mem _))) (hv _ (List.getElem_mem _))

theorem map_mul_zeroFrame (hM : M.Lawful Z) {a : F} (ha : M.isFinite a = true) {v : List F}
    (hv : ZeroFrame Z v) : ZeroFrame Z (v.map fun x => M.mul a x) :=
  List.forall_mem_map.mpr fun x hx => hM.np1_right x a (hv x hx) ha

end ZeroFrames

/-! ### The constants and the carrier of an admissible configuration -/

theorem isFinite_ofB32 {F : Type} {M : Num F} {Z : F → Prop} (hM : M.Lawful Z) {w : Word}
    (hw : finite w = true) : M.isFinite (M.ofB32 w) = true := (hM.np6_val w hw).1

/-- A zero pattern has the value 0. -/
theorem val_of_isZero {w : Word} (h : isZero w = true) : val w = 0 :=
  (val_eq_zero_iff w).mpr ((isZero_iff w).mp h)

theorem finite_of_isZero {w : Word} (h : isZero w = true) : finite w = true := by
  rw [finite_iff, (isZero_iff w).mp h]; norm_num

section Frames

variable {F : Type} {C : Cfg F}

theorem paddedFrame_empty (n : Nat) : paddedFrame n ⟨[]⟩ = silence n := by
  simp [paddedFrame, silence, FrameTick.kIn]

/-- A decided stage is bypassed or has a bank of finite coefficients (40 R132 to R134). -/
theorem bankOk_decideStage (M : Num F) {k : Nat} (r : Option (Bank F k)) : BankOk M (decideStage M r).1 :=
  fun _ => chk_finite M

theorem bankOk_none (M : Num F) {k : Nat} : BankOk M (none : Option (Bank F k)) := fun _ h => nomatch h

/-- All banks of FilterSpec have finite coefficients only. -/
structure BanksOk (M : Num F) (b : Banks F) : Prop where
  bpf : BankOk M b.bpf
  notch : BankOk M b.notch
  lpf : BankOk M b.lpf

theorem banksOk_synthesize (C : Cfg F) (tag : Tag) : BanksOk C.num (synthesize C tag).1 where
  bpf := by
    simp only [synthesize, bpfDecide]
    split
    · exact bankOk_none _
    · exact bankOk_decideStage _ _
  notch := by
    simp only [synthesize, notchDecide]
    split
    · exact bankOk_none _
    · split
      · exact bankOk_none _
      · exact bankOk_decideStage _ _
  lpf := bankOk_decideStage _ _

/-- The banks of SYNTH are a synthesis when the block's valid FilterSpec is one (10 R52). -/
theorem banksOk_synth {b : Block F}
    (hb : b.spec.specValid = true → b.spec.banks = (synthesize C b.spec.tag).1) (tag : Tag) :
    BanksOk C.num (synth C tag b).spec.banks := by
  obtain ⟨⟨hv, _⟩, e⟩ | ⟨_, e⟩ := synth_cases C tag b
  · rw [e, hb hv]; exact banksOk_synthesize C _
  · rw [e]; exact banksOk_synthesize C tag

/-- Each demodulation maps zeros to zeros; AM where its carrier is finite. -/
theorem demodulate_zeroFrame (hC : C.Admissible) {Z : F → Prop} (hM : C.num.Lawful Z) {m : DemodMode}
    {banks : Banks F} (hbanks : BanksOk C.num banks) {snap : Tuning} (hvol : finite snap.volume = true)
    (hcar : m = .am → ∀ c ∈ carrier C (C.num.ofB32 snap.center), C.num.isFinite c = true)
    {xs : List F} (hxs : ZeroFrame Z xs) : ZeroFrame Z (demodulate C m banks snap xs) := by
  have hv := isFinite_ofB32 hM hvol
  have hg : C.num.isFinite C.gfmf = true := isFinite_ofB32 hM hC.gfm_range.1
  cases m with
  | am =>
    exact map_mul_zeroFrame hM hv (zeroPhase_zeroFrame hM hbanks.lpf
      (rectify_zeroFrame hM (mix_zeroFrame hM hxs (hcar rfl))))
  | fm =>
    exact map_mul_zeroFrame hM hv (zeroPhase_zeroFrame hM hbanks.lpf (map_mul_zeroFrame hM hg
      (rectify_zeroFrame hM (diff_zeroFrame hM (zeroPhase_zeroFrame hM hbanks.bpf hxs)))))
  | passthrough =>
    exact map_mul_zeroFrame hM hv (zeroPhase_zeroFrame hM hbanks.notch (zeroPhase_zeroFrame hM hbanks.bpf hxs))

theorem isShort_empty {n : Nat} (h : 0 < n) : isShort n ⟨[]⟩ = true := by
  simpa [isShort, FrameTick.kIn] using h

/-- The empty tick: the frame step passes both checks and emits zero patterns. -/
theorem frameStep_empty (hC : C.Admissible) {b : Block F} (hb : BlockInv C b)
    (hvol : finite b.tuning.volume = true) {m : DemodMode}
    (hcar : m = .am → ∀ c ∈ carrier C (C.num.ofB32 b.tuning.center), C.num.isFinite c = true) :
    (∀ w ∈ (frameStep C m ⟨[]⟩ b).2, isZero w = true) ∧ (frameStep C m ⟨[]⟩ b).2.length = C.n ∧
      (frameStep C m ⟨[]⟩ b).1.fault = b.fault ∧
      (frameStep C m ⟨[]⟩ b).1.underrunCount = b.underrunCount + 1 := by
  obtain ⟨Z, hM⟩ := hC.num_lawful
  have hbanks : BanksOk C.num (synth C (tagOf b.tuning) (noteUnderrun C ⟨[]⟩ b)).spec.banks :=
    banksOk_synth (by simpa using fun h => (hb.spec_current h).2.1) _
  have hin : ZeroFrame Z ((paddedFrame C.n ⟨[]⟩).map C.num.ofB32) := by
    simp only [paddedFrame_empty, silence, List.map_replicate]
    exact fun x hx => List.eq_of_mem_replicate hx ▸ hM.zero_ofB32 _ (by decide)
  have zeros : ∀ w ∈ framePatterns C m b.tuning
      (synth C (tagOf b.tuning) (noteUnderrun C ⟨[]⟩ b)).spec.banks (paddedFrame C.n ⟨[]⟩), isZero w = true :=
    List.forall_mem_map.mpr fun x hx =>
      hM.zero_pattern x (demodulate_zeroFrame hC hM hbanks hvol hcar hin x hx)
  obtain ⟨hf, _⟩ | ⟨_, o, rfl, ⟨ho, _⟩ | ⟨_, e⟩⟩ := frameStep_cases C m ⟨[]⟩ b
  · simp [paddedFrame_empty] at hf
  · exact absurd (List.all_eq_true.mpr fun w hw => finite_of_isZero (zeros w hw)) (by simpa [allFinite] using ho)
  · rw [e]
    exact ⟨zeros, by simp, by simp, by simp [isShort_empty hC.n_range.1]⟩

end Frames

/-! ### The obligations -/

/-- Settles O48: each section maps zeros to zeros, and so does the cascade in both directions. -/
theorem zeroPhaseOfZerosIsZeros : Obligations.ZeroPhaseOfZerosIsZeros :=
  fun _ _ _ _ _ _ hM hbank hv => zeroPhase_zeroFrame hM hbank hv

/-- Settles O49: the phase of index 0 is a zero over the sample rate, a zero again, and its cosine is ONE. -/
theorem carrierStartsAtOne : Obligations.CarrierStartsAtOne := by
  intro F C fc hC hfin
  obtain ⟨Z, hM⟩ := hC.num_lawful
  obtain ⟨hfs, hfs4⟩ := hC.fs_range
  have hn : 0 < C.n := hC.n_range.1
  have nonzero : isZero (C.num.toB32 C.fsf) = false := by
    rw [Bool.eq_false_iff]
    intro h
    have := (hM.np6_val _ hfs).2
    rw [show C.num.toB32 (C.num.ofB32 C.fsBits) = C.num.toB32 C.fsf from rfl, val_of_isZero h] at this
    linarith
  have phase := hM.np5_div _ C.fsf (hM.np1_right _ _ hM.np1_zero hfin) (isFinite_ofB32 hM hfs) nonzero
  have start := hM.np5_cos _ phase
  simp only [carrier, List.getElem?_map, List.getElem?_range hn, Option.map_some, start, Cfg.one]

/-- Settles O46: the empty tick in FM and PASSTHROUGH, which use no carrier. -/
theorem emptyTickEmitsZerosInFmAndPt : Obligations.EmptyTickEmitsZerosInFmAndPt := by
  constructor
  · intro s hs hvol
    have run : ∀ m : DemodMode, m ≠ .am → ∃ u o, exec (frameOf m ⟨[]⟩) s = .next u ∧ u.outPort = some o ∧
        o.length = Config.cfg.n ∧ (∀ w ∈ o, isZero w = true) ∧ u.block.fault = s.block.fault ∧
        u.block.underrunCount = s.block.underrunCount + 1 := by
      intro m hm
      obtain ⟨zeros, length, fault, count⟩ :=
        frameStep_empty Config.cfg_legal.admissible hs.block hvol (m := m) fun h => absurd h hm
      exact ⟨_, _, exec_frameOf m ⟨[]⟩ s, rfl, length, zeros, fault, count⟩
    exact ⟨run .fm (by decide), run .passthrough (by decide)⟩
  · intro F C m b hC hb hvol hm
    obtain ⟨zeros, _, fault, count⟩ := frameStep_empty hC hb hvol (m := m) fun h => absurd h hm
    exact ⟨zeros, fault, count⟩

/-- Settles O47: the empty tick in AM, whose carrier is finite by hypothesis. -/
theorem emptyTickEmitsZerosInAm : Obligations.EmptyTickEmitsZerosInAm := by
  intro F C b hC hb hvol hcar
  obtain ⟨zeros, _, fault, _⟩ := frameStep_empty hC hb hvol (m := .am) fun _ => hcar
  exact ⟨zeros, fault⟩

end Sys2Proof.Machine
end

section
/-! The zero-phase filter over the reals (spec 41 R160, R162). As power series a frame of length `n` passes
through a cascade by multiplication with the cascade's transfer function, modulo `X ^ n`; so the reversed
cascade is the transpose of the cascade, and the zero-phase filter is the cascade followed by its transpose. -/

namespace Sys2Proof.Machine

open PowerSeries

/-- A frame as a power series: sample `i` is the coefficient of `X ^ i`. -/
noncomputable def frameSeries : List ℝ → PowerSeries ℝ
  | [] => 0
  | x :: xs => C x + X * frameSeries xs

theorem coeff_frameSeries (v : List ℝ) (i : ℕ) : coeff i (frameSeries v) = v.getD i 0 := by
  induction v generalizing i with
  | nil => simp [frameSeries]
  | cons x xs ih => cases i <;> simp [frameSeries, coeff_succ_X_mul, ih]

/-- Numerator of a section's transfer function. -/
noncomputable def numerator (sec : Biquad ℝ) : PowerSeries ℝ := C sec.b0 + C sec.b1 * X + C sec.b2 * X ^ 2

/-- Denominator of a section's transfer function. -/
noncomputable def denominator (sec : Biquad ℝ) : PowerSeries ℝ := 1 + C sec.a1 * X + C sec.a2 * X ^ 2

/-- The difference equation of transposed direct form II, with the delay elements as initial values. -/
theorem biquadFrom_series (sec : Biquad ℝ) (s1 s2 : ℝ) (v : List ℝ) :
    X ^ v.length ∣ denominator sec * frameSeries (biquadFrom numReal sec s1 s2 v) -
      (numerator sec * frameSeries v + C s1 + C s2 * X) := by
  induction v generalizing s1 s2 with
  | nil => simp
  | cons x xs ih =>
    obtain ⟨q, hq⟩ := ih (sec.b1 * x - sec.a1 * (sec.b0 * x + s1) + s2)
      (sec.b2 * x - sec.a2 * (sec.b0 * x + s1))
    refine ⟨q, ?_⟩
    have e : biquadFrom numReal sec s1 s2 (x :: xs) = (sec.b0 * x + s1) ::
      biquadFrom numReal sec (sec.b1 * x - sec.a1 * (sec.b0 * x + s1) + s2)
        (sec.b2 * x - sec.a2 * (sec.b0 * x + s1)) xs := rfl
    rw [e, List.length_cons, pow_succ]
    simp only [frameSeries, numerator, denominator, map_add, map_sub, map_mul] at hq ⊢
    linear_combination X * hq

theorem biquad_series (sec : Biquad ℝ) (v : List ℝ) :
    X ^ v.length ∣ frameSeries (biquad numReal sec v) -
      numerator sec * (denominator sec)⁻¹ * frameSeries v := by
  have unit : denominator sec * (denominator sec)⁻¹ = 1 :=
    PowerSeries.mul_inv_cancel _ (by simp [denominator])
  obtain ⟨q, hq⟩ := biquadFrom_series sec 0 0 v
  have hq' : denominator sec * frameSeries (biquad numReal sec v) - numerator sec * frameSeries v =
      X ^ v.length * q := by simpa [biquad, numReal] using hq
  exact ⟨(denominator sec)⁻¹ * q, by
    linear_combination (denominator sec)⁻¹ * hq' - frameSeries (biquad numReal sec v) * unit⟩

/-- A cascade has a transfer function that does not depend on the frame. -/
theorem cascade_series {k : Nat} (c : Bank ℝ k) :
    ∃ H : PowerSeries ℝ, ∀ v, X ^ v.length ∣ frameSeries (cascade numReal c v) - H * frameSeries v := by
  unfold cascade
  induction c.toList with
  | nil => exact ⟨1, fun v => by simp⟩
  | cons sec rest ih =>
    obtain ⟨H, hH⟩ := ih
    refine ⟨H * (numerator sec * (denominator sec)⁻¹), fun v => ?_⟩
    obtain ⟨p, hp⟩ := biquad_series sec v
    obtain ⟨q, hq⟩ := hH (biquad numReal sec v)
    rw [biquad_length] at hq
    exact ⟨q + H * p, by rw [List.foldl_cons]; linear_combination hq + H * hp⟩

/-- The inner product of two frames. -/
noncomputable def frameInner (u v : List ℝ) : ℝ := (List.zipWith (· * ·) u v).sum

theorem frameInner_comm (u v : List ℝ) : frameInner u v = frameInner v u := by
  rw [frameInner, List.zipWith_comm]
  simp only [mul_comm, frameInner]

theorem frameInner_self_nonneg (u : List ℝ) : 0 ≤ frameInner u u := by
  refine List.sum_nonneg fun x hx => ?_
  obtain ⟨i, hi, rfl⟩ := List.mem_iff_getElem.mp hx
  rw [List.getElem_zipWith]
  exact mul_self_nonneg _

/-- The inner product with a reversed frame is a coefficient of the product of the two series. -/
theorem frameInner_reverse {u v : List ℝ} {n : ℕ} (hu : u.length = n + 1) (hv : v.length = n + 1) :
    frameInner u.reverse v = coeff n (frameSeries u * frameSeries v) := by
  rw [mul_comm, coeff_mul, Finset.Nat.sum_antidiagonal_eq_sum_range_succ_mk, frameInner,
    ← Fin.sum_univ_getElem, Finset.sum_range]
  refine Fintype.sum_equiv (finCongr (by simp [hu, hv])) _ _ fun i => ?_
  have hi : i.val < n + 1 := by simpa [hu, hv] using i.isLt
  simp [coeff_frameSeries, hu, hv, hi]
  exact mul_comm _ _

/-- Reversing before the cascade or after it: the reversed cascade is the transpose of the cascade. -/
theorem frameInner_cascade_reverse {k : Nat} (c : Bank ℝ k) (u v : List ℝ) (h : u.length = v.length) :
    frameInner (cascade numReal c u).reverse v = frameInner u.reverse (cascade numReal c v) := by
  obtain ⟨H, hH⟩ := cascade_series c
  cases hn : v.length with
  | zero =>
    have hu : u.reverse = [] := by simpa [hn] using h
    simp [frameInner, hu, List.length_eq_zero_iff.mp hn]
  | succ n =>
    obtain ⟨p, hp⟩ := hH u
    obtain ⟨q, hq⟩ := hH v
    rw [h, hn] at hp
    rw [hn] at hq
    rw [frameInner_reverse (n := n) (by simp [h, hn]) hn, frameInner_reverse (n := n) (by simp [h, hn])
      (by simp [hn]), ← sub_eq_zero, ← map_sub]
    refine X_pow_dvd_iff.mp ⟨p * frameSeries v - frameSeries u * q, ?_⟩ n n.lt_add_one
    linear_combination frameSeries v * hp - frameSeries u * hq

/-- The zero-phase filter is the cascade followed by its transpose. -/
theorem frameInner_zeroPhase {k : Nat} (c : Bank ℝ k) (u v : List ℝ) (h : u.length = v.length) :
    frameInner (zeroPhase numReal (some c) u) v =
      frameInner (cascade numReal c u) (cascade numReal c v) := by
  rw [zeroPhase, frameInner_cascade_reverse c _ v (by simp [h]), List.reverse_reverse]

/-- Settles O51: `⟨ZP u, v⟩` is `⟨C u, C v⟩` for the cascade `C`. -/
theorem zeroPhaseIsSymmetricPositive : Obligations.ZeroPhaseIsSymmetricPositive := by
  intro k c u v h
  constructor
  · change frameInner _ v = frameInner u _
    rw [frameInner_zeroPhase c u v h, frameInner_comm u, frameInner_zeroPhase c v u h.symm, frameInner_comm]
  · change 0 ≤ frameInner u _
    rw [frameInner_comm, frameInner_zeroPhase c u u rfl]
    exact frameInner_self_nonneg _

end Sys2Proof.Machine
end

section
/-! NUM_REAL and SYN_REF: the exact reals have NUM's properties with the number 0 as the only zero, and the
reference synthesis gives a bank on the whole of its domain (spec 00 R5, R11, R12; 40 R131, R138 to R142). -/

namespace Sys2Proof.Machine

/-! ### Rounding to binary32 -/

theorem abs_val (w : Word) : |val w| * 2 ^ 149 = magnitude 23 (wordBits w) := by
  rw [← magUnits_eq]
  cases h : w.msb <;> simp [val, h, abs_div, neg_div]

theorem val_neg_iff (w : Word) : val w < 0 ↔ w.msb = true ∧ val w ≠ 0 := by
  cases h : w.msb
  · have : 0 ≤ val w := by rw [val, h, if_neg Bool.false_ne_true]; positivity
    simpa using this
  · have : val w ≤ 0 := by
      rw [val, h, if_pos rfl, neg_one_mul, neg_div]
      exact neg_nonpos.mpr (by positivity)
    simp [this.lt_iff_ne]

theorem roundB32_zero : roundB32 (0 : ℝ) = 0#32 := by
  have := roundMag_magnitude (K := ℝ) 23 (inf := 0x7F800000) (bits := 0) (by norm_num)
  simp only [magnitude_zero, Nat.cast_zero] at this
  simp [roundB32, this]

/-- A finite word that is not a zero is the rounding of its value. -/
theorem roundB32_val {w : Word} (h : finite w = true) (h0 : val w ≠ 0) : roundB32 (val w : ℝ) = w := by
  have units : |(val w : ℝ)| * 2 ^ 149 = (magnitude 23 (wordBits w) : ℕ) := by
    exact_mod_cast congrArg (Rat.cast (K := ℝ)) (abs_val w)
  have abs : (if (val w : ℝ) < 0 then -(val w : ℝ) else val w) = |(val w : ℝ)| := by
    split
    · next hn => exact (abs_of_neg hn).symm
    · next hn => exact (abs_of_nonneg (not_lt.mp hn)).symm
  have bits : wordBits w ≠ 0 := fun e => h0 ((val_eq_zero_iff w).mpr e)
  unfold roundB32
  rw [abs, units, roundMag_magnitude 23 ((finite_iff w).mp h)]
  conv_rhs => rw [← ieeeOf_word w]
  cases hs : w.msb <;> simp [ieeeOf, val_neg_iff, hs, bits, h0]

/-! ### NUM_REAL's properties -/

theorem numReal_lawful : numReal.Lawful (fun x => x = 0) where
  zero_pattern z hz := by
    show isZero (roundB32 z) = true
    rw [hz, roundB32_zero]; decide
  zero_ofB32 w hw := by
    show (val w : ℝ) = 0
    exact_mod_cast (val_eq_zero_iff w).mpr ((isZero_iff w).mp hw)
  np1_zero := Nat.cast_zero
  np1_left z v hz _ := mul_eq_zero_of_left hz v
  np1_right z v hz _ := mul_eq_zero_of_right v hz
  np2_add y z hy hz := by show y + z = 0; rw [hy, hz, add_zero]
  np2_sub y z hy hz := by show y - z = 0; rw [hy, hz, sub_zero]
  np2_abs z hz := abs_eq_zero.mpr hz
  np3_left v := by show ((1 : ℕ) : ℝ) * v = v; simp
  np3_right v := by show v * ((1 : ℕ) : ℝ) = v; simp
  np4_idem v := abs_abs v
  np4_nonneg v _ := by show decide (((0 : ℕ) : ℝ) ≤ |v|) = true; simp
  np5_cos z hz := by show Real.cos z = ((1 : ℕ) : ℝ); simp [hz]
  np5_div z d hz _ _ := by show z / d = 0; rw [hz, zero_div]
  np6_val w hw := by
    show finite (roundB32 (val w : ℝ)) = true ∧ val (roundB32 (val w : ℝ)) = val w
    by_cases h0 : val w = 0
    · rw [h0, Rat.cast_zero, roundB32_zero]
      exact ⟨by decide, (val_eq_zero_iff _).mpr (by decide)⟩
    · rw [roundB32_val hw h0]
      exact ⟨hw, rfl⟩
  np6_exact w hw h0 := roundB32_val hw h0
  np7_lt u w _ _ := by show decide ((val u : ℝ) < val w) = true ↔ _; simp
  np7_le u w _ _ := by show decide ((val u : ℝ) ≤ val w) = true ↔ _; simp
  np7_max u w _ _ :=
    ⟨fun h => max_eq_right (Rat.cast_le.mpr h.le), fun h => max_eq_left (Rat.cast_le.mpr h.le), max_choice _ _⟩
  np7_min u w _ _ :=
    ⟨fun h => min_eq_left (Rat.cast_le.mpr h.le), fun h => min_eq_right (Rat.cast_le.mpr h.le), min_choice _ _⟩

/-! ### The reference configuration's constants -/

section Constants

variable (n : ℕ) (fs flp qn gfm : Word)

theorem val_half : val 0x3F000000#32 = 1 / 2 := by decide +kernel

@[simp] theorem referenceCfg_one : (referenceCfg n fs flp qn gfm).one = (1 : ℝ) := Nat.cast_one

@[simp] theorem referenceCfg_zero : (referenceCfg n fs flp qn gfm).zero = (0 : ℝ) := Nat.cast_zero

@[simp] theorem referenceCfg_half : (referenceCfg n fs flp qn gfm).half = (1 / 2 : ℝ) := by
  show ((val 0x3F000000#32 : ℚ) : ℝ) = 1 / 2
  rw [val_half]; norm_num

@[simp] theorem referenceCfg_nyqf : (referenceCfg n fs flp qn gfm).nyqf = (val fs : ℝ) / 2 := by
  show (referenceCfg n fs flp qn gfm).half * (val fs : ℝ) = _
  rw [referenceCfg_half]; ring

end Constants

/-- Settles O44: the source's formula, and the bounds of `max` and `min`. -/
theorem clampedCutoffsStayInBand : Obligations.ClampedCutoffsStayInBand := by
  intro n fs flp qn gfm fc bw C
  have formula : clamp C fc bw = (max 1 (fc - bw / 2), min ((val fs : ℝ) / 2 - 1) (fc + bw / 2)) := by
    show (max C.one (fc - C.half * bw), min (C.nyqf - C.one) (fc + C.half * bw)) = _
    simp only [C, referenceCfg_one, referenceCfg_half, referenceCfg_nyqf, one_div_mul_eq_div]
  rw [formula]
  exact ⟨rfl, le_max_left _ _, min_le_left _ _⟩

/-! ### SYN_REF is total on its domain -/

theorem complexSqrt_sq (z : ℂ) : complexSqrt z ^ 2 = z := by
  rw [complexSqrt, one_div]
  exact_mod_cast Complex.cpow_nat_inv_pow z two_ne_zero

theorem prototypePole_im (k : ℕ) : (prototypePole k).im = Real.sin (Real.pi * (2 * k + 3) / 8) := by
  rw [prototypePole, mul_comm, Complex.exp_ofReal_mul_I_im]

/-- No pole of the prototype is real: its angle is an odd number of eighths of a half turn. -/
theorem prototypePole_im_ne_zero (k : ℕ) : (prototypePole k).im ≠ 0 := by
  rw [prototypePole_im, Real.sin_ne_zero_iff]
  intro n h
  have odd : (8 * n : ℤ) = 2 * k + 3 := by
    have h' : Real.pi * (8 * n) = Real.pi * (2 * k + 3) := by linarith
    exact_mod_cast mul_left_cancel₀ Real.pi_ne_zero h'
  omega

/-- Pre-warping is positive and increasing below the Nyquist frequency (40 R139). -/
theorem prewarp_strictMonoOn {fs : ℝ} (hfs : 0 < fs) : StrictMonoOn (prewarp fs) (Set.Ico 0 (fs / 2)) := by
  have angle : ∀ g ∈ Set.Ico 0 (fs / 2), Real.pi * g / fs ∈ Set.Ioo (-(Real.pi / 2)) (Real.pi / 2) := by
    intro g ⟨h0, h1⟩
    constructor
    · have : 0 ≤ Real.pi * g / fs := by positivity
      linarith [Real.pi_pos]
    · rw [div_lt_iff₀ hfs]
      nlinarith [Real.pi_pos]
  intro g hg g' hg' h
  have := Real.strictMonoOn_tan (angle g hg) (angle g' hg') (by gcongr)
  exact mul_lt_mul_of_pos_left this (by positivity)

@[simp] theorem prewarp_zero (fs : ℝ) : prewarp fs 0 = 0 := by simp [prewarp]

/-- Of two complex numbers with a positive real product, not both real, exactly one is above the real axis. -/
theorem im_pos_iff_not_im_pos {z w : ℂ} {p : ℝ} (hp : 0 < p) (hprod : z * w = p) (hsum : (z + w).im ≠ 0) :
    0 < w.im ↔ ¬ 0 < z.im := by
  obtain ⟨hre, him⟩ := Complex.ext_iff.mp hprod
  simp only [Complex.mul_re, Complex.mul_im, Complex.ofReal_re, Complex.ofReal_im] at hre him
  rw [Complex.add_im] at hsum
  have hw : p * w.im = -z.im * (w.re ^ 2 + w.im ^ 2) := by linear_combination -w.im * hre + w.re * him
  have hz : p * z.im = -w.im * (z.re ^ 2 + z.im ^ 2) := by linear_combination -z.im * hre + z.re * him
  constructor
  · intro h hz'
    nlinarith [mul_pos hp h, mul_nonneg hz'.le (add_nonneg (sq_nonneg w.re) (sq_nonneg w.im))]
  · intro h
    have nonneg : 0 ≤ w.im := nonneg_of_mul_nonneg_right (a := p)
      (by rw [hw]; exact mul_nonneg (by linarith) (by positivity)) hp
    refine nonneg.lt_of_ne fun h0 => hsum ?_
    rw [← h0, neg_zero, zero_mul, mul_eq_zero] at hz
    rw [← h0, hz.resolve_left hp.ne', add_zero]

/-- Each prototype pole gives one root of its quadratic above the real axis (40 R140). -/
theorem bandPassRoots_upper_length {B w0sq : ℝ} (hB : 0 < B) (hw : 0 < w0sq) :
    ((bandPassRoots B w0sq).filter fun s => decide (0 < s.im)).length = 4 := by
  have one : ∀ k : ℕ, ∀ r, r = complexSqrt ((prototypePole k * B) ^ 2 - 4 * w0sq) →
      (([(prototypePole k * B + r) / 2, (prototypePole k * B - r) / 2] : List ℂ).filter
        fun s => decide (0 < s.im)).length = 1 := by
    intro k r hr
    have root := complexSqrt_sq ((prototypePole k * B) ^ 2 - 4 * w0sq)
    rw [← hr] at root
    have key := im_pos_iff_not_im_pos (z := (prototypePole k * B + r) / 2) (w := (prototypePole k * B - r) / 2)
      hw (by linear_combination -root / 4) (by
        rw [← add_div, add_add_sub_cancel, add_self_div_two, Complex.im_mul_ofReal]
        exact mul_ne_zero (prototypePole_im_ne_zero k) hB.ne')
    simp only [List.filter_cons, List.filter_nil, decide_eq_true_eq, key]
    split <;> simp_all
  simp only [bandPassRoots, List.filter_flatMap, List.length_flatMap, one _ _ rfl]
  rfl

theorem bandPassPoles_length {fs lo hi : ℝ} (h0 : 0 < lo) (h1 : lo < hi) (h2 : hi < fs / 2) :
    (bandPassPoles fs lo hi).length = 4 := by
  have mono := prewarp_strictMonoOn (fs := fs) (by linarith)
  have lo_mem : lo ∈ Set.Ico 0 (fs / 2) := ⟨h0.le, by linarith⟩
  have hi_mem : hi ∈ Set.Ico 0 (fs / 2) := ⟨by linarith, h2⟩
  have wlo : 0 < prewarp fs lo := by
    simpa using mono ⟨le_rfl, by linarith⟩ lo_mem h0
  have whi : prewarp fs lo < prewarp fs hi := mono lo_mem hi_mem h1
  simp only [bandPassPoles, sortPoles, List.length_insertionSort, List.length_map]
  exact bandPassRoots_upper_length (sub_pos.mpr whi) (mul_pos wlo (wlo.trans whi))

theorem refBandPass_isSome {fs lo hi : ℝ} (h0 : 0 < lo) (h1 : lo < hi) (h2 : hi < fs / 2) :
    (refBandPass fs lo hi).isSome = true := by
  have length := bandPassPoles_length h0 h1 h2
  rw [refBandPass, if_pos ⟨h0, h1, h2⟩]
  match bandPassPoles fs lo hi, length with
  | [_, _, _, _], _ => rfl

theorem refNotch_isSome {fs f0 : ℝ} (qn : ℝ) (h0 : 0 < f0) (h1 : f0 < fs / 2) :
    (refNotch fs qn f0).isSome = true := by
  rw [refNotch, if_pos ⟨h0, h1⟩]; rfl

theorem refLowPass_isSome (fs flp : ℝ) : (refLowPass fs flp).isSome = true := by
  have length : (lowPassPoles fs flp).length = 2 := by
    simp only [lowPassPoles, sortPoles, List.length_insertionSort, List.length_map, List.length_cons, List.length_nil]
  rw [refLowPass]
  match lowPassPoles fs flp, length with
  | [_, _], _ => rfl

/-- SP7 of SYN_REF under NUM_REAL, whatever the parameters. -/
theorem referenceCfg_onDomain (n : ℕ) (fs flp qn gfm : Word) :
    Syn.OnDomain (referenceCfg n fs flp qn gfm) where
  bpf lo hi h1 h2 h3 := by
    have h1' : 1 ≤ lo := by simpa using of_decide_eq_true h1
    have h2' : lo < hi := of_decide_eq_true h2
    have h3' : hi ≤ (referenceCfg n fs flp qn gfm).nyqf - (referenceCfg n fs flp qn gfm).one := of_decide_eq_true h3
    rw [referenceCfg_nyqf, referenceCfg_one] at h3'
    exact refBandPass_isSome (by linarith) h2' (by linarith)
  notch f h1 h2 := by
    have h1' : 0 < f := by simpa using of_decide_eq_true h1
    have h2' : f < (val fs : ℝ) / 2 := by simpa using of_decide_eq_true h2
    exact refNotch_isSome _ h1' h2'
  lpf := refLowPass_isSome _ _

/-- Settles O56: the parameters' ranges are the hypotheses; arithmetic and synthesis are the lemmas above. -/
theorem referenceConfigurationIsAdmissible : Obligations.ReferenceConfigurationIsAdmissible := by
  have admissible : ∀ (n : ℕ) (fs flp qn gfm : Word), 1 ≤ n ∧ n ≤ 65535 →
      finite fs = true ∧ 4 < val fs → finite flp = true ∧ 0 < val flp ∧ val flp < val fs / 2 →
      finite qn = true ∧ 0 < val qn → finite gfm = true ∧ 0 < val gfm →
      (referenceCfg n fs flp qn gfm).Admissible := fun n fs flp qn gfm hn hfs hflp hqn hgfm =>
    ⟨hn, hfs, hflp, hqn, hgfm, ⟨_, numReal_lawful⟩, referenceCfg_onDomain n fs flp qn gfm⟩
  exact ⟨admissible _ _ _ _ _ (by decide) (by decide +kernel) (by decide +kernel) (by decide +kernel)
    (by decide +kernel), numReal_lawful, admissible⟩

end Sys2Proof.Machine
end

section
/-! NUM_IEEE: arithmetic on patterns in round-to-nearest-even has NUM's properties in every format at least as
wide as binary32, because binary32 widens exactly and narrows back to the same pattern (spec 00 R11, R12). -/

namespace Sys2Proof.Machine

section Ieee

variable {f : IeeeFormat}

/-- A pattern that is a number: neither infinite nor NaN. -/
abbrev IsNumber (x : IeeeValue f) : Prop := ieeeBits x < ieeeInfBits f

theorem IsNumber.not_nan {x : IeeeValue f} (h : IsNumber x) : ieeeIsNan x = false := by
  simp [ieeeIsNan, h.le]

theorem IsNumber.not_inf {x : IeeeValue f} (h : IsNumber x) : ieeeIsInf x = false := by
  simpa [ieeeIsInf] using h.ne

theorem ieeeIsZero_iff {x : IeeeValue f} : ieeeIsZero x = true ↔ ieeeBits x = 0 := by simp [ieeeIsZero]

@[simp] theorem ieeeIsZero_ieeeOf_zero (neg : Bool) : ieeeIsZero (ieeeOf neg 0 : IeeeValue f) = true := by
  rw [ieeeIsZero_iff, ieeeBits_ieeeOf neg (Nat.two_pow_pos _)]

theorem ieeeMag_of_isZero {x : IeeeValue f} (h : ieeeIsZero x = true) : ieeeMag x = 0 := by
  rw [ieeeMag_eq, ieeeIsZero_iff.mp h, magnitude_zero]

theorem ieeeInt_of_isZero {x : IeeeValue f} (h : ieeeIsZero x = true) : ieeeInt x = 0 := by
  simp [ieeeInt, ieeeMag_of_isZero h]

theorem ieeePack_magnitude (neg : Bool) {bits : ℕ} (h : bits < ieeeInfBits f) :
    ieeePack neg (magnitude f.fracBits bits : ℚ) = (ieeeOf neg bits : IeeeValue f) := by
  rw [ieeePack, roundMag_magnitude f.fracBits h]

/-- A number is the rounding of its own magnitude. -/
theorem ieeePack_ieeeMag {x : IeeeValue f} (h : IsNumber x) : ieeePack (ieeeNegative x) (ieeeMag x : ℚ) = x := by
  rw [ieeeMag_eq, ieeePack_magnitude _ h, ieeeOf_fields]

/-- `ONE` of the format. -/
def ieeeOne : IeeeValue f := ieeePack false ((1 : ℕ) * 2 ^ ieeeUnit f)

/-! ### The operations on numbers -/

theorem ieeeNanFirst_of_numbers {a b : IeeeValue f} (ha : IsNumber a) (hb : IsNumber b) (c : IeeeValue f) :
    ieeeNanFirst a b c = c := by
  simp [ieeeNanFirst, ha.not_nan, hb.not_nan]

theorem ieeeMul_of_numbers {a b : IeeeValue f} (ha : IsNumber a) (hb : IsNumber b) :
    ieeeMul a b = ieeePack (ieeeNegative a != ieeeNegative b) ((ieeeMag a : ℚ) * ieeeMag b / 2 ^ ieeeUnit f) := by
  simp [ieeeMul, ieeeNanFirst_of_numbers ha hb, ha.not_inf, hb.not_inf]

theorem ieeeDiv_of_numbers {a b : IeeeValue f} (ha : IsNumber a) (hb : IsNumber b) (h0 : ieeeIsZero b = false) :
    ieeeDiv a b = ieeePack (ieeeNegative a != ieeeNegative b) ((ieeeMag a : ℚ) / ieeeMag b * 2 ^ ieeeUnit f) := by
  simp [ieeeDiv, ieeeNanFirst_of_numbers ha hb, ha.not_inf, hb.not_inf, h0]

theorem ieeeMul_comm_of_number {a : IeeeValue f} (ha : IsNumber a) (b : IeeeValue f) :
    ieeeMul a b = ieeeMul b a := by
  simp only [ieeeMul, ieeeNanFirst, ha.not_nan, Bool.false_eq_true, if_false, Bool.or_comm (ieeeIsInf a),
    Bool.or_comm (ieeeIsZero a), bne_comm (a := ieeeNegative a), mul_comm (ieeeMag a : ℚ)]

theorem ieeeAddNumbers_of_zeros {a b : IeeeValue f} (ha : IsNumber a) (hb : IsNumber b)
    (ha0 : ieeeIsZero a = true) (hb0 : ieeeIsZero b = true) : ieeeIsZero (ieeeAddNumbers a b) = true := by
  simp [ieeeAddNumbers, ha.not_inf, hb.not_inf, ieeeInt_of_isZero ha0, ieeeInt_of_isZero hb0]

@[simp] theorem ieeeBits_ieeeAbs (x : IeeeValue f) : ieeeBits (ieeeAbs x) = ieeeBits x :=
  ieeeBits_ieeeOf false (ieeeBits_lt x)

@[simp] theorem ieeeBits_ieeeNeg (x : IeeeValue f) : ieeeBits (ieeeNeg x) = ieeeBits x :=
  ieeeBits_ieeeOf _ (ieeeBits_lt x)

@[simp] theorem ieeeNegative_ieeeAbs (x : IeeeValue f) : ieeeNegative (ieeeAbs x) = false :=
  ieeeNegative_ieeeOf false (ieeeBits_lt x)

/-! ### The order -/

theorem ieeeInt_lt_iff (a b : IeeeValue f) : ieeeInt a < ieeeInt b ↔ ieeeKey a < ieeeKey b := by
  have less := (magnitude_strictMono f.fracBits).lt_iff_lt (a := ieeeBits a) (b := ieeeBits b)
  have greater := (magnitude_strictMono f.fracBits).lt_iff_lt (a := ieeeBits b) (b := ieeeBits a)
  have zeroA := magnitude_eq_zero_iff f.fracBits (bits := ieeeBits a)
  have zeroB := magnitude_eq_zero_iff f.fracBits (bits := ieeeBits b)
  simp only [ieeeInt, ieeeKey, ieeeMag_eq]
  cases ieeeNegative a <;> cases ieeeNegative b <;> simp only [if_true, Bool.false_eq_true, if_false] <;> omega

theorem ieeeLt_of_numbers {a b : IeeeValue f} (ha : IsNumber a) (hb : IsNumber b) :
    ieeeLt a b = true ↔ ieeeInt a < ieeeInt b := by
  simp [ieeeLt, ieeeOrdered, ha.not_nan, hb.not_nan, ieeeInt_lt_iff]

theorem ieeeLe_of_numbers {a b : IeeeValue f} (ha : IsNumber a) (hb : IsNumber b) :
    ieeeLe a b = true ↔ ieeeInt a ≤ ieeeInt b := by
  rw [← not_lt, ieeeInt_lt_iff, not_lt]
  simp [ieeeLe, ieeeOrdered, ha.not_nan, hb.not_nan]

/-! ### Narrowing -/

/-- NaN and the infinities narrow to patterns that are not finite. -/
theorem isNumber_of_finite_ieeeNarrow {x : IeeeValue f} (h : finite (ieeeNarrow x) = true) : IsNumber x := by
  by_contra hn
  obtain hnan | hinf := (not_lt.mp hn).lt_or_eq
  · have nan : ieeeIsNan x = true := by simpa [ieeeIsNan] using hnan
    simp [ieeeNarrow, nan, finite, expField] at h
  · have nan : ieeeIsNan x = false := by simp [ieeeIsNan, hinf]
    have inf : ieeeIsInf x = true := by simp [ieeeIsInf, hinf]
    cases hs : ieeeNegative x <;> simp [ieeeNarrow, nan, inf, hs, finite, expField] at h

/-- A number whose magnitude is one of binary32 narrows to the word of that sign and magnitude. -/
theorem ieeeNarrow_of_magnitude {x : IeeeValue f} (hx : IsNumber x) {bits : ℕ} (hb : bits < 0x7F800000)
    (hmag : (ieeeMag x : ℚ) / 2 ^ ieeeUnit f * 2 ^ 149 = magnitude 23 bits) :
    ieeeNarrow x = (ieeeOf (f := binary32) (ieeeNegative x) bits : Word) := by
  simp only [ieeeNarrow, hx.not_nan, hx.not_inf, hmag, roundMag_magnitude 23 hb, Bool.false_eq_true, if_false]
  cases ieeeNegative x
  · simp [ieeeOf]
  · apply BitVec.eq_of_toNat_eq
    have sign := Nat.two_pow_add_eq_or_of_lt (i := 31) (b := bits) (by omega) 1
    simp [ieeeOf, BitVec.toNat_or, Nat.mod_eq_of_lt (show bits < 4294967296 by omega)] at sign ⊢
    omega

theorem ieeeNarrow_of_isZero (hf : 0 < ieeeInfBits f) {x : IeeeValue f} (h : ieeeIsZero x = true) :
    isZero (ieeeNarrow x) = true := by
  have hx : IsNumber x := by rw [IsNumber, ieeeIsZero_iff.mp h]; exact hf
  rw [ieeeNarrow_of_magnitude hx (bits := 0) (by norm_num) (by simp [ieeeMag_of_isZero h]), isZero_iff]
  exact ieeeBits_ieeeOf (f := binary32) _ (by norm_num)

end Ieee

/-! ### Formats at least as wide as binary32 -/

section WideEnough

variable {f : IeeeFormat} (hf : ieeeWideEnough f)
include hf

theorem ieeeUnit_ge : 149 ≤ ieeeUnit f := by
  have : 2 ^ 7 ≤ 2 ^ (f.expBits - 1) := Nat.pow_le_pow_right two_pos (by have := hf.1; omega)
  have := hf.2
  simp only [ieeeUnit]; omega

/-- The magnitude of infinity's pattern is above that of every binary32 number. -/
theorem magnitude_inf_ge : 2 ^ 277 * 2 ^ (ieeeUnit f - 149) ≤ magnitude f.fracBits (ieeeInfBits f) := by
  obtain ⟨hE, hF⟩ := hf
  have half : 2 ^ f.expBits = 2 * 2 ^ (f.expBits - 1) := by rw [← pow_succ']; congr 1; omega
  have large : 2 ^ 7 ≤ 2 ^ (f.expBits - 1) := Nat.pow_le_pow_right two_pos (by omega)
  have inf : ieeeInfBits f = (2 ^ f.expBits - 2) * 2 ^ f.fracBits + 2 ^ f.fracBits := by
    rw [ieeeInfBits, ← Nat.succ_mul]; congr 1; omega
  rw [inf, magnitude_significand _ (.inr le_rfl) (Nat.pow_le_pow_right two_pos (Nat.le_succ _)), ← pow_add,
    ← pow_add]
  refine Nat.pow_le_pow_right two_pos ?_
  simp only [ieeeUnit]
  omega

/-- A significand of binary32 times a power of two, no larger than binary32's numbers, is a number's magnitude. -/
theorem exists_number {s e : ℕ} (hs : s < 2 ^ 24) (h : s * 2 ^ e < 2 ^ 277 * 2 ^ (ieeeUnit f - 149)) :
    ∃ bits, bits < ieeeInfBits f ∧ magnitude f.fracBits bits = s * 2 ^ e := by
  have wide : 2 ^ 24 ≤ 2 ^ (f.fracBits + 1) := Nat.pow_le_pow_right two_pos (by have := hf.2; omega)
  obtain ⟨bits, hb⟩ := exists_magnitude_eq f.fracBits (hs.trans_le wide) e
  refine ⟨bits, (magnitude_strictMono f.fracBits).lt_iff_lt.mp ?_, hb⟩
  rw [hb]
  exact h.trans_le (magnitude_inf_ge hf)

theorem ieeeInfBits_pos : 0 < ieeeInfBits f := by
  obtain ⟨bits, h, _⟩ := exists_number hf (s := 0) (e := 0) (by norm_num) (by positivity)
  exact (Nat.zero_le bits).trans_lt h

theorem isNumber_of_isZero {z : IeeeValue f} (h : ieeeIsZero z = true) : IsNumber z := by
  rw [IsNumber, ieeeIsZero_iff.mp h]; exact ieeeInfBits_pos hf

theorem ieeePack_zero (neg : Bool) : ieeePack neg 0 = (ieeeOf neg 0 : IeeeValue f) := by
  simpa using ieeePack_magnitude neg (ieeeInfBits_pos hf)

theorem ieeeMul_zero_left {z v : IeeeValue f} (hz : ieeeIsZero z = true) (hv : IsNumber v) :
    ieeeIsZero (ieeeMul z v) = true := by
  rw [ieeeMul_of_numbers (isNumber_of_isZero hf hz) hv, ieeeMag_of_isZero hz, Nat.cast_zero, zero_mul, zero_div,
    ieeePack_zero hf, ieeeIsZero_ieeeOf_zero]

/-! ### Widening -/

/-- Widening is exact: sign and magnitude stay, in the wider format's smaller unit. -/
theorem ieeeWiden_exact {w : Word} (hw : finite w = true) :
    IsNumber (ieeeWiden w : IeeeValue f) ∧ ieeeNegative (ieeeWiden w : IeeeValue f) = w.msb ∧
      ieeeMag (ieeeWiden w : IeeeValue f) = magUnits w * 2 ^ (ieeeUnit f - 149) := by
  obtain ⟨k, s, hks, hk, hs⟩ := exists_significand 23 (wordBits w)
  have mag : magUnits w = s * 2 ^ k := by rw [magUnits_eq, hks, magnitude_significand 23 hk hs.le]
  have bound := Nat.mul_lt_mul_of_pos_right (magUnits_lt hw) (Nat.two_pow_pos (ieeeUnit f - 149))
  rw [mag, mul_assoc, ← pow_add] at bound
  obtain ⟨bits, hbits, hm⟩ := exists_number hf hs bound
  rw [pow_add, ← mul_assoc, ← mag] at hm
  have scale : (magUnits w : ℚ) / 2 ^ 149 * 2 ^ ieeeUnit f = magnitude f.fracBits bits := by
    obtain ⟨d, hd⟩ := Nat.exists_eq_add_of_le (ieeeUnit_ge hf)
    rw [hm, hd, Nat.add_sub_cancel_left, pow_add]
    push_cast
    field_simp
  have e : (ieeeWiden w : IeeeValue f) = ieeeOf w.msb bits := by
    rw [ieeeWiden, if_pos hw, scale, ieeePack_magnitude _ hbits]
  have lt := hbits.trans ieeeInfBits_lt
  rw [e, IsNumber, ieeeMag_eq, ieeeBits_ieeeOf _ lt]
  exact ⟨hbits, ieeeNegative_ieeeOf _ lt, hm⟩

/-- The value of a word is the widened number, in units. -/
theorem ieeeInt_ieeeWiden {w : Word} (hw : finite w = true) :
    (ieeeInt (ieeeWiden w : IeeeValue f) : ℚ) = val w * 2 ^ ieeeUnit f := by
  obtain ⟨_, sign, mag⟩ := ieeeWiden_exact hf hw
  obtain ⟨d, hd⟩ := Nat.exists_eq_add_of_le (ieeeUnit_ge hf)
  simp only [ieeeInt, sign, mag, val, hd, Nat.add_sub_cancel_left, pow_add]
  split <;> push_cast <;> ring

/-- A finite word survives widening and narrowing. -/
theorem ieeeNarrow_ieeeWiden {w : Word} (hw : finite w = true) : ieeeNarrow (ieeeWiden w : IeeeValue f) = w := by
  obtain ⟨num, sign, mag⟩ := ieeeWiden_exact hf hw
  rw [ieeeNarrow_of_magnitude num ((finite_iff w).mp hw), sign, ieeeOf_word]
  obtain ⟨d, hd⟩ := Nat.exists_eq_add_of_le (ieeeUnit_ge hf)
  rw [mag, hd, Nat.add_sub_cancel_left, pow_add, magUnits_eq]
  push_cast
  field_simp

theorem ieeeLt_ieeeWiden {u w : Word} (hu : finite u = true) (hw : finite w = true) :
    ieeeLt (ieeeWiden u : IeeeValue f) (ieeeWiden w) = true ↔ val u < val w := by
  rw [ieeeLt_of_numbers (ieeeWiden_exact hf hu).1 (ieeeWiden_exact hf hw).1, ← Int.cast_lt (R := ℚ),
    ieeeInt_ieeeWiden hf hu, ieeeInt_ieeeWiden hf hw, mul_lt_mul_iff_left₀ (by positivity)]

theorem ieeeLe_ieeeWiden {u w : Word} (hu : finite u = true) (hw : finite w = true) :
    ieeeLe (ieeeWiden u : IeeeValue f) (ieeeWiden w) = true ↔ val u ≤ val w := by
  rw [ieeeLe_of_numbers (ieeeWiden_exact hf hu).1 (ieeeWiden_exact hf hw).1, ← Int.cast_le (R := ℚ),
    ieeeInt_ieeeWiden hf hu, ieeeInt_ieeeWiden hf hw, mul_le_mul_iff_left₀ (by positivity)]

/-! ### ONE -/

/-- The pattern of 1: a positive number of magnitude `2 ^ ieeeUnit`. -/
theorem ieeeOne_fields : IsNumber (ieeeOne : IeeeValue f) ∧ ieeeNegative (ieeeOne : IeeeValue f) = false ∧
    ieeeMag (ieeeOne : IeeeValue f) = 2 ^ ieeeUnit f := by
  have below : 1 * 2 ^ ieeeUnit f < 2 ^ 277 * 2 ^ (ieeeUnit f - 149) := by
    rw [one_mul, ← pow_add]
    exact Nat.pow_lt_pow_right one_lt_two (by have := ieeeUnit_ge hf; omega)
  obtain ⟨bits, hbits, hm⟩ := exists_number hf (s := 1) (by norm_num) below
  have e : (ieeeOne : IeeeValue f) = ieeeOf false bits := by
    rw [ieeeOne, ← ieeePack_magnitude false hbits, hm, Nat.cast_mul, Nat.cast_pow, Nat.cast_two]
  have lt := hbits.trans ieeeInfBits_lt
  rw [e, IsNumber, ieeeMag_eq, ieeeBits_ieeeOf _ lt, hm, one_mul]
  exact ⟨hbits, ieeeNegative_ieeeOf _ lt, rfl⟩

/-- Multiplication by ONE leaves every pattern as it is, NaN and the infinities included. -/
theorem ieeeOne_ieeeMul (v : IeeeValue f) : ieeeMul ieeeOne v = v := by
  obtain ⟨num, sign, mag⟩ := ieeeOne_fields hf
  obtain hv | hv | hv := lt_trichotomy (ieeeBits v) (ieeeInfBits f)
  · rw [ieeeMul_of_numbers num hv, sign, mag, Bool.false_bne, Nat.cast_pow, Nat.cast_two,
      mul_div_cancel_left₀ _ (by positivity), ieeePack_ieeeMag hv]
  · have nan : ieeeIsNan v = false := by simp [ieeeIsNan, hv]
    have inf : ieeeIsInf v = true := by simp [ieeeIsInf, hv]
    have zero : ieeeIsZero v = false := by simp [ieeeIsZero, hv, (ieeeInfBits_pos hf).ne']
    have oneZero : ieeeIsZero (ieeeOne : IeeeValue f) = false := by
      rw [Bool.eq_false_iff]
      intro h
      exact (Nat.two_pow_pos _).ne (mag ▸ (ieeeMag_of_isZero h).symm)
    simp only [ieeeMul, ieeeNanFirst, num.not_nan, nan, inf, zero, oneZero, sign, Bool.or_true, Bool.or_false,
      Bool.false_bne, Bool.false_eq_true, if_true, if_false, ← hv, ieeeOf_fields]
  · have nan : ieeeIsNan v = true := by simp [ieeeIsNan, hv]
    simp [ieeeMul, ieeeNanFirst, num.not_nan, nan]

/-! ### NUM's properties -/

/-- NUM_IEEE of a wide enough format, with its two zeros. -/
theorem numIeee_lawful (cosine : IeeeValue f → IeeeValue f) (twoPi : IeeeValue f)
    (hcos : ∀ z, ieeeIsZero z = true → cosine z = ieeeOne) :
    (numIeee f cosine twoPi).Lawful fun z => ieeeIsZero z = true where
  zero_pattern z hz := ieeeNarrow_of_isZero (ieeeInfBits_pos hf) hz
  zero_ofB32 w hw := by
    have bits := (isZero_iff w).mp hw
    have fin : finite w = true := finite_of_isZero hw
    show ieeeIsZero (ieeeWiden w) = true
    rw [ieeeIsZero_iff, ← magnitude_eq_zero_iff f.fracBits, ← ieeeMag_eq, (ieeeWiden_exact hf fin).2.2, magUnits_eq,
      bits, magnitude_zero, zero_mul]
  np1_zero := by
    show ieeeIsZero (ieeePack false (((0 : ℕ) : ℚ) * 2 ^ ieeeUnit f)) = true
    rw [Nat.cast_zero, zero_mul, ieeePack_zero hf, ieeeIsZero_ieeeOf_zero]
  np1_left z v hz hv := ieeeMul_zero_left hf hz (isNumber_of_finite_ieeeNarrow hv)
  np1_right z v hz hv := by
    show ieeeIsZero (ieeeMul v z) = true
    rw [← ieeeMul_comm_of_number (isNumber_of_isZero hf hz)]
    exact ieeeMul_zero_left hf hz (isNumber_of_finite_ieeeNarrow hv)
  np2_add y z hy hz := by
    have ny := isNumber_of_isZero hf hy
    have nz := isNumber_of_isZero hf hz
    show ieeeIsZero (ieeeAdd y z) = true
    rw [ieeeAdd, ieeeNanFirst_of_numbers ny nz]
    exact ieeeAddNumbers_of_zeros ny nz hy hz
  np2_sub y z hy hz := by
    have ny := isNumber_of_isZero hf hy
    have nz := isNumber_of_isZero hf hz
    have hz' : ieeeIsZero (ieeeNeg z) = true := by
      rw [ieeeIsZero_iff, ieeeBits_ieeeNeg, ieeeIsZero_iff.mp hz]
    show ieeeIsZero (ieeeSub y z) = true
    rw [ieeeSub, ieeeNanFirst_of_numbers ny nz]
    exact ieeeAddNumbers_of_zeros ny (isNumber_of_isZero hf hz') hy hz'
  np2_abs z hz := by
    show ieeeIsZero (ieeeAbs z) = true
    rw [ieeeIsZero_iff, ieeeBits_ieeeAbs, ieeeIsZero_iff.mp hz]
  np3_left v := ieeeOne_ieeeMul hf v
  np3_right v := (ieeeMul_comm_of_number (ieeeOne_fields hf).1 v).symm.trans (ieeeOne_ieeeMul hf v)
  np4_idem v := by
    show ieeeOf false (ieeeBits (ieeeAbs v)) = ieeeOf false (ieeeBits v)
    rw [ieeeBits_ieeeAbs]
  np4_nonneg v hv := by
    have nv : IsNumber (ieeeAbs v) := by
      rw [IsNumber, ieeeBits_ieeeAbs]; exact isNumber_of_finite_ieeeNarrow hv
    have zero := ieeeIsZero_ieeeOf_zero (f := f) false
    show ieeeLe (ieeePack false (((0 : ℕ) : ℚ) * 2 ^ ieeeUnit f)) (ieeeAbs v) = true
    rw [Nat.cast_zero, zero_mul, ieeePack_zero hf, ieeeLe_of_numbers (isNumber_of_isZero hf zero) nv,
      ieeeInt_of_isZero zero]
    simp [ieeeInt]
  np5_cos z hz := hcos z hz
  np5_div z d hz hd h0 := by
    have nd : ieeeIsZero d = false := by
      rw [Bool.eq_false_iff]
      exact fun h => Bool.false_ne_true (h0.symm.trans (ieeeNarrow_of_isZero (ieeeInfBits_pos hf) h))
    show ieeeIsZero (ieeeDiv z d) = true
    rw [ieeeDiv_of_numbers (isNumber_of_isZero hf hz) (isNumber_of_finite_ieeeNarrow hd) nd, ieeeMag_of_isZero hz,
      Nat.cast_zero, zero_div, zero_mul, ieeePack_zero hf, ieeeIsZero_ieeeOf_zero]
  np6_val w hw := by
    show finite (ieeeNarrow (ieeeWiden w : IeeeValue f)) = true ∧ val (ieeeNarrow (ieeeWiden w : IeeeValue f)) = val w
    rw [ieeeNarrow_ieeeWiden hf hw]
    exact ⟨hw, rfl⟩
  np6_exact w hw _ := ieeeNarrow_ieeeWiden hf hw
  np7_lt u w hu hw := ieeeLt_ieeeWiden hf hu hw
  np7_le u w hu hw := ieeeLe_ieeeWiden hf hu hw
  np7_max u w hu hw :=
    ⟨fun h => if_pos ((ieeeLt_ieeeWiden hf hu hw).mpr h),
      fun h => if_neg (mt (ieeeLt_ieeeWiden hf hu hw).mp h.not_gt), (ite_eq_or_eq _ _ _).symm⟩
  np7_min u w hu hw :=
    ⟨fun h => if_neg (mt (ieeeLt_ieeeWiden hf hw hu).mp h.not_gt),
      fun h => if_pos ((ieeeLt_ieeeWiden hf hw hu).mpr h), (ite_eq_or_eq _ _ _).symm⟩

end WideEnough

/-- In binary32 narrowing keeps every number, so the values with a zero pattern are the two zeros. -/
theorem isZero_ieeeNarrow_binary32 (x : IeeeValue binary32) :
    isZero (ieeeNarrow x) = true ↔ ieeeIsZero x = true := by
  refine ⟨fun h => ?_, ieeeNarrow_of_isZero (by decide)⟩
  have hx := isNumber_of_finite_ieeeNarrow (finite_of_isZero h)
  have same : ieeeNarrow x = (ieeeOf (f := binary32) (ieeeNegative x) (ieeeBits x) : Word) :=
    ieeeNarrow_of_magnitude hx hx (div_mul_cancel₀ _ (by positivity))
  rw [same, ieeeOf_fields, isZero_iff] at h
  exact ieeeIsZero_iff.mpr h

/-- Settles O57: the two zeros of any wide format; in binary32 they are R11's own zeros. -/
theorem ieeeArithmeticIsLawful : Obligations.IeeeArithmeticIsLawful := by
  refine ⟨fun f cosine twoPi hf hcos => numIeee_lawful hf cosine twoPi hcos, fun cosine twoPi hcos => ?_⟩
  have zeros : (fun x => isZero ((numIeee binary32 cosine twoPi).toB32 x) = true) = fun x => ieeeIsZero x = true :=
    funext fun x => propext (isZero_ieeeNarrow_binary32 x)
  rw [Num.LawfulAsWritten, zeros]
  exact numIeee_lawful ⟨le_rfl, le_rfl⟩ cosine twoPi hcos

end Sys2Proof.Machine
end

section
/-! What the bus reads (spec 10 R41, R42, R51; 20 R76): the register map's named and unnamed words, the coefficient
window, STATUS and CAUSE bit by bit. -/

namespace Sys2Proof.Machine

section Registers

variable {F : Type} (C : Cfg F) (b : Block F)

/-- The addresses of the register map that name one word: all but CMD and the coefficient window (20 R76). -/
def namedAddrs : List Nat :=
  [0x00, 0x01, 0x02, 0x03, 0x04, 0x05, 0x09, 0x0A, 0x0B, 0x0C, 0x0D, 0x10, 0x11, 0x12, 0x13, 0x14, 0x15,
    0x18, 0x19, 0x1A]

theorem readReg_unnamed {a : Addr} (h : a.toNat ∉ namedAddrs) : readReg C b a = windowRead C b a.toNat := by
  simp only [namedAddrs, List.mem_cons, List.not_mem_nil, or_false, not_or] at h
  unfold readReg
  split
  case h_21 => rfl
  all_goals omega

theorem windowRead_gap {n : Nat} (h : n < 0x40 ∨ (0x54 ≤ n ∧ n ≤ 0x57) ∨ (0x5D ≤ n ∧ n ≤ 0x5F) ∨ 0x6A ≤ n) :
    windowRead C b n = 0#32 := by
  unfold windowRead
  rw [if_neg (by omega), if_neg (by omega), if_neg (by omega)]

/-- `x[i]` reads at address 0x10 + i. -/
theorem readReg_tuning (i : Fin 6) : readReg C b (0x10#7 + BitVec.ofNat 7 i.val) = readTuning b.tuning i := by
  fin_cases i <;> rfl

/-! ### The coefficient window -/

theorem windowRead_of_noBanks (h : b.spec.banks = noBanks) (n : Nat) : windowRead C b n = 0#32 := by
  simp [windowRead, h, noBanks, windowWord]

theorem readReg_window {n : Nat} (h : 0x40 ≤ n) (h' : n < 2 ^ 7) :
    readReg C b (BitVec.ofNat 7 n) = windowRead C b n := by
  have e : (BitVec.ofNat 7 n).toNat = n := by rw [BitVec.toNat_ofNat, Nat.mod_eq_of_lt h']
  have below : ∀ m ∈ namedAddrs, m < 0x40 := by decide
  have unnamed : n ∉ namedAddrs := fun hn => absurd (below n hn) (by omega)
  rw [readReg_unnamed C b (by rwa [e]), e]

theorem readReg_bandPass {k : Nat} (h : k < 20) :
    readReg C b (BitVec.ofNat 7 (0x40 + k)) = windowWord C.num b.spec.banks.bpf k := by
  rw [readReg_window C b (by omega) (by omega), windowRead, if_pos (by omega), Nat.add_sub_cancel_left]

theorem readReg_notch {k : Nat} (h : k < 5) :
    readReg C b (BitVec.ofNat 7 (0x58 + k)) = windowWord C.num b.spec.banks.notch k := by
  rw [readReg_window C b (by omega) (by omega), windowRead, if_neg (by omega), if_pos (by omega),
    Nat.add_sub_cancel_left]

theorem readReg_lowPass {k : Nat} (h : k < 10) :
    readReg C b (BitVec.ofNat 7 (0x60 + k)) = windowWord C.num b.spec.banks.lpf k := by
  rw [readReg_window C b (by omega) (by omega), windowRead, if_neg (by omega), if_neg (by omega),
    if_pos (by omega), Nat.add_sub_cancel_left]

/-- Five coefficients per section: word 5·i + j of a list of sections is coefficient j of section i. -/
theorem getElem?_flatMap_coeffs (l : List (Biquad F)) (i : Nat) (j : Fin 5) :
    (l.flatMap Biquad.coeffs)[5 * i + j.val]? = l[i]?.map fun s => s.coeffs[j] := by
  induction l generalizing i with
  | nil => rfl
  | cons s l ih =>
    cases i with
    | zero => fin_cases j <;> rfl
    | succ i =>
      rw [List.flatMap_cons, List.getElem?_append_right (by simp; omega), List.getElem?_cons_succ, ← ih]
      congr 1
      simp; omega

theorem windowWord_some (M : Num F) {k : Nat} (bank : Bank F k) (i : Fin k) (j : Fin 5) :
    windowWord M (some bank) (5 * i.val + j.val) = M.toB32 bank[i].coeffs[j] := by
  have e : bank.toList[i.val]? = some bank[i] := by simp
  simp only [windowWord, getElem?_flatMap_coeffs, e, Option.map_some]

/-! ### STATUS and CAUSE -/

theorem getLsbD_eq_getElem_of_eq {w k i : Nat} (x : BitVec w) (hi : i < w) (h : k = i) : x.getLsbD k = x[i] := by
  rw [h, BitVec.getLsbD_eq_getElem hi]

theorem statusWord_flags :
    (statusWord b).getLsbD 0 = b.run ∧ (statusWord b).getLsbD 1 = tuned b.valid ∧
      (statusWord b).getLsbD 2 = b.spec.specValid ∧ (statusWord b).getLsbD 3 = false ∧
      (statusWord b).getLsbD 4 = b.cfgErr ∧ (statusWord b).getLsbD 5 = b.synErr ∧
      (statusWord b).getLsbD 6 = b.underrun ∧ (statusWord b).getLsbD 7 = b.fault ∧
      (statusWord b).getLsbD 8 = bpfOn b ∧ (statusWord b).getLsbD 9 = notchOn b ∧
      (statusWord b).getLsbD 10 = lpfOn b := by
  simp (disch := omega) only [statusWord, BitVec.getLsbD_append, if_neg, if_pos]
  simp

theorem statusWord_fields :
    (statusWord b).extractLsb' 11 5 = 0#5 ∧ (statusWord b).extractLsb' 16 6 = b.valid ∧
      (statusWord b).extractLsb' 22 10 = 0#10 := by
  refine ⟨?_, ?_, ?_⟩ <;> ext i hi <;>
    simp (disch := omega) only [statusWord, BitVec.getElem_extractLsb', BitVec.getLsbD_append, if_neg, if_pos]
  all_goals exact getLsbD_eq_getElem_of_eq _ hi (by omega)

theorem causeWord_fields :
    (causeWord b).extractLsb' 0 4 = b.faultCause ∧ (causeWord b).extractLsb' 4 4 = 0#4 ∧
      (causeWord b).extractLsb' 8 4 = b.cfgCause ∧ (causeWord b).extractLsb' 12 4 = 0#4 ∧
      (causeWord b).extractLsb' 16 3 = b.synMask ∧ (causeWord b).extractLsb' 19 13 = 0#13 := by
  refine ⟨?_, ?_, ?_, ?_, ?_, ?_⟩ <;> ext i hi <;>
    simp (disch := omega) only [causeWord, BitVec.getElem_extractLsb', BitVec.getLsbD_append, if_neg, if_pos]
  all_goals exact getLsbD_eq_getElem_of_eq _ hi (by omega)

/-- The valid bit of `x[i]`, in STATUS. -/
theorem statusWord_valid (i : Fin 6) : (statusWord b).getLsbD (16 + i.val) = b.valid.getLsbD i.val := by
  rw [← (statusWord_fields b).2.1, BitVec.getLsbD_extractLsb']
  simp

theorem statusWord_reset : statusWord (Block.reset : Block F) = 0#32 := by
  simp only [statusWord, Block.reset, bpfOn, notchOn, lpfOn, tuned, Bool.false_and]
  decide

theorem causeWord_reset : causeWord (Block.reset : Block F) = 0#32 := by
  simp only [causeWord, Block.reset]
  decide

/-- Everything but the identification and the configuration reads 0 after reset (10 R60). -/
theorem readReg_reset {a : Addr} (h : 6 ≤ a.toNat) : readReg C Block.reset a = 0#32 := by
  unfold readReg
  split
  case h_1 | h_2 | h_3 | h_4 | h_5 | h_6 => omega
  case h_7 => exact statusWord_reset
  case h_8 => exact causeWord_reset
  case h_21 => exact windowRead_of_noBanks C _ rfl _
  all_goals rfl

end Registers

/-! ### The obligations -/

/-- Settles O10: nothing but the identification and the configuration survives reset. -/
theorem resetLeavesEverythingZero : Obligations.ResetLeavesEverythingZero :=
  ⟨fun _ C => ⟨rfl, rfl, rfl, rfl, rfl, rfl, fun _ h => readReg_reset C h⟩, rfl, rfl, rfl, rfl, rfl⟩

/-- Settles O15: the legal word is stored under its VALID bit, and both are read back from the map. -/
theorem acceptedSetterReadsBack : Obligations.AcceptedSetterReadsBack := by
  intro i d s hd
  refine ⟨_, exec_setterOf i d s, ?_, ?_⟩ <;> rw [onBlock_block, setTuning_of_legal i _ d _ hd]
  · rw [readReg_tuning, readTuning_writeTuning_same]
  · change (statusWord _).getLsbD _ = true
    rw [statusWord_valid, getLsbD_or_validBit]
    simp

/-- Settles O21: the named words by evaluating the map, the others by the gaps of the window. -/
theorem registerMapReadValues : Obligations.RegisterMapReadValues := by
  intro F C b
  refine ⟨rfl, rfl, rfl, rfl, rfl, rfl, rfl, rfl, rfl, rfl, rfl, rfl, rfl, rfl, rfl, rfl, rfl, rfl, rfl, rfl, ?_⟩
  intro a ha
  simp only [List.mem_cons, List.not_mem_nil, or_false] at ha
  have unnamed : a.toNat ∉ namedAddrs := by
    simp only [namedAddrs, List.mem_cons, List.not_mem_nil, or_false]; omega
  rw [readReg_unnamed C b unnamed, windowRead_gap C b (by omega)]

/-- Settles O22: each bank's part of the window is its coefficients in order, section after section. -/
theorem coefficientWindowReadValues : Obligations.CoefficientWindowReadValues := by
  intro F C b j
  refine ⟨fun i => ?_, ?_, fun i => ?_⟩
  · rw [Nat.add_assoc, readReg_bandPass C b (by omega)]
    cases b.spec.banks.bpf with
    | none => rfl
    | some bank => rw [windowWord_some]; fin_cases j <;> rfl
  · rw [readReg_notch C b (by omega)]
    cases b.spec.banks.notch with
    | none => rfl
    | some bank =>
      rw [show j.val = 5 * (0 : Fin 1).val + j.val by simp, windowWord_some]
      fin_cases j <;> rfl
  · rw [Nat.add_assoc, readReg_lowPass C b (by omega)]
    cases b.spec.banks.lpf with
    | none => rfl
    | some bank => rw [windowWord_some]; fin_cases j <;> rfl

/-- Settles O23: the two words are read off as they are laid out. -/
theorem statusAndCauseLayout : Obligations.StatusAndCauseLayout := by
  intro F b
  obtain ⟨run, tunedBit, specValid, reserved, cfgErr, synErr, underrun, fault, bpf, notch, lpf⟩ := statusWord_flags b
  obtain ⟨low, valid, high⟩ := statusWord_fields b
  exact ⟨run, tunedBit, specValid, reserved, cfgErr, synErr, underrun, fault, bpf, notch, lpf, low, valid, high,
    causeWord_fields b⟩

/-- Settles O17: the decoder's test of the data, and CMD is no named word of the map. -/
theorem commandDataNamesTheCommand : Obligations.CommandDataNamesTheCommand := by
  refine ⟨fun d => ?_, fun F C b => ?_⟩
  · simp only [decodeHost, twIsWrite_twOf, twAddr_twOf, twData_twOf, if_true]; rfl
  · rw [readReg_unnamed C b (by decide), windowRead_gap C b (by decide)]

end Sys2Proof.Machine
end

section
/-! What operations leave alone (spec 10 R32, R34, R40; 60 R294, R298), and the banks a frame step filters with
(10 R52): per operation of the block what it keeps, then the statements over all instructions. -/

namespace Sys2Proof.Machine

section Kept

variable {F : Type} (C : Cfg F) (b : Block F)

/-! ### RUN and the tuning registers -/

@[simp] theorem setTuning_run (i : Fin 6) (c : ConfigCause) (d : Word) : (setTuning i c d b).run = b.run := by
  unfold setTuning; split <;> simp

@[simp] theorem startRun_run : (startRun b).run = (b.run || tuned b.valid) := by
  unfold startRun; split <;> simp_all

@[simp] theorem startRun_tuning : (startRun b).tuning = b.tuning := by
  unfold startRun; split <;> simp

/-- A setter's write changes no register but its own, and that one to a legal value. -/
theorem readTuning_setTuning_ne {i j : Fin 6} {c : ConfigCause} {d : Word}
    (h : readTuning (setTuning i c d b).tuning j ≠ readTuning b.tuning j) :
    i = j ∧ readTuning (setTuning i c d b).tuning j = d ∧ legalTuning j d = true := by
  cases hd : legalTuning i d
  case false => rw [setTuning_of_illegal i c d b hd, raiseEvent_tuning] at h; exact absurd rfl h
  case true =>
    rw [setTuning_of_legal i c d b hd] at h ⊢
    have same : i = j := by
      by_contra hij
      exact h (readTuning_writeTuning_other _ _ _ _ hij)
    subst same
    exact ⟨rfl, readTuning_writeTuning_same .., hd⟩

/-- A frame step keeps the host's registers and flags (10 R32, 60 R294). -/
theorem frameStep_keeps_control (m : DemodMode) (t : FrameTick) :
    (frameStep C m t b).1.tuning = b.tuning ∧ (frameStep C m t b).1.valid = b.valid ∧
      (frameStep C m t b).1.run = b.run ∧ (frameStep C m t b).1.cfgErr = b.cfgErr ∧
      (frameStep C m t b).1.cfgCause = b.cfgCause := by
  obtain ⟨_, e⟩ | ⟨_, o, _, ⟨_, e⟩ | ⟨_, e⟩⟩ := frameStep_cases C m t b <;> rw [e] <;> simp

@[simp] theorem frameStep_tuning (m : DemodMode) (t : FrameTick) : (frameStep C m t b).1.tuning = b.tuning :=
  (frameStep_keeps_control C b m t).1

@[simp] theorem frameStep_run (m : DemodMode) (t : FrameTick) : (frameStep C m t b).1.run = b.run :=
  (frameStep_keeps_control C b m t).2.2.1

/-! ### The engine's state -/

/-- FilterSpec, SYN_MASK, FAULT_CAUSE and the counters: what only the engine writes (10 R51). -/
def EngineKept (b b' : Block F) : Prop :=
  b'.spec = b.spec ∧ b'.synMask = b.synMask ∧ b'.faultCause = b.faultCause ∧ b'.frameCount = b.frameCount ∧
    b'.underrunCount = b.underrunCount ∧ b'.faultCount = b.faultCount

variable {b}

theorem EngineKept.refl : EngineKept b b := ⟨rfl, rfl, rfl, rfl, rfl, rfl⟩

theorem EngineKept.configError (c : ConfigCause) : EngineKept b (raiseEvent (.configError c) b) := .refl

theorem EngineKept.setTuning (i : Fin 6) (c : ConfigCause) (d : Word) : EngineKept b (setTuning i c d b) := by
  unfold Machine.setTuning
  split
  · exact .refl
  · exact .configError c

theorem EngineKept.startRun : EngineKept b (startRun b) := by
  unfold Machine.startRun
  split
  · exact .refl
  · exact .configError _

theorem EngineKept.stopRun : EngineKept b (stopRun b) := .refl

theorem EngineKept.clearSticky (m : Word) : EngineKept b (clearSticky m b) := .refl

/-! ### The banks of a frame step -/

/-- After SYNTH, FilterSpec is the synthesis of the snapshot's tag, current before or not (10 R52). -/
theorem synth_spec (tag : Tag) (h : b.spec.specValid = true → b.spec.banks = (synthesize C b.spec.tag).1) :
    (synth C tag b).spec = ⟨true, tag, (synthesize C tag).1⟩ := by
  obtain ⟨⟨hvalid, rfl⟩, e⟩ | ⟨_, e⟩ := synth_cases C tag b
  · rw [e, ← h hvalid, ← hvalid]
  · rw [e]

/-! ### Tuning fields that a frame step does not read -/

/-- The block with other tuning registers. -/
def withTuning (x : Tuning) (b : Block F) : Block F := { b with tuning := x }

theorem noteUnderrun_withTuning (t : FrameTick) (x : Tuning) :
    noteUnderrun C t (withTuning x b) = withTuning x (noteUnderrun C t b) := by
  unfold noteUnderrun; split <;> rfl

theorem synth_withTuning (tag : Tag) (x : Tuning) :
    synth C tag (withTuning x b) = withTuning x (synth C tag b) := by
  obtain ⟨h, e⟩ | ⟨h, e⟩ := synth_cases C tag b
  · rw [e, synth_of_current C tag (withTuning x b) h]
  · rw [e, synth_of_stale C tag (withTuning x b) h]; rfl

theorem frameStep_withTuning (m : DemodMode) (t : FrameTick) {x : Tuning} (htag : tagOf x = tagOf b.tuning)
    (hpatterns : ∀ banks p, framePatterns C m x banks p = framePatterns C m b.tuning banks p) :
    frameStep C m t (withTuning x b) = (withTuning x (frameStep C m t b).1, (frameStep C m t b).2) := by
  have snap : (withTuning x b).tuning = x := rfl
  have banks : ∀ b' : Block F, (withTuning x b').spec = b'.spec := fun _ => rfl
  simp only [frameStep, snap, htag, hpatterns, noteUnderrun_withTuning, synth_withTuning, banks]
  split
  · split <;> rfl
  · rfl

theorem framePatterns_antenna (m : DemodMode) (x : Tuning) (w : Word) (banks : Banks F) (p : List Word) :
    framePatterns C m { x with antenna := w } banks p = framePatterns C m x banks p := by
  cases m <;> rfl

end Kept

/-! ### Host operations -/

theorem decodeWrite_ne_rd (a r : Addr) (d : Word) : decodeWrite a d ≠ .rd r := by
  unfold decodeWrite decodeCommand
  repeat' refine ite_of_both (· ≠ Instr.rd r) ?_ ?_
  all_goals exact nofun

/-- A bus word that decodes to a read is no write (30 R104). -/
theorem twIsWrite_of_rd {tw : TransWord} {a : Addr} (h : decodeHost tw = .rd a) : twIsWrite tw = false := by
  cases hw : twIsWrite tw
  case false => rfl
  case true => rw [decodeHost, if_pos hw] at h; exact absurd h (decodeWrite_ne_rd _ a _)

/-- An operation on the block alone that keeps the engine's state changes no port and no pending event. -/
theorem onBlock_keeps {f : Block Value → Block Value} {s : State} (tw : TransWord)
    (h : EngineKept s.block (f s.block)) :
    EngineKept s.block (onBlock f s).block ∧ (onBlock f s).outPort = s.outPort ∧ (onBlock f s).inputs = s.inputs ∧
      (twIsWrite tw = true → (onBlock f s).busRead = s.busRead) := ⟨h, rfl, rfl, fun _ => rfl⟩

/-- A host operation other than CMD.RESET keeps the engine's state (10 R51, 60 R298). -/
theorem exec_host_keeps_engine {tw : TransWord} {s t : State} (hreset : decodeHost tw ≠ .cmdReset)
    (h : exec (decodeHost tw) s = .next t) :
    EngineKept s.block t.block ∧ t.outPort = s.outPort ∧ t.inputs = s.inputs ∧
      (twIsWrite tw = true → t.busRead = s.busRead) := by
  rcases exec_cases h with ⟨j, d, _, rfl⟩ | ⟨_, rfl⟩ | ⟨_, rfl⟩ | ⟨_, rfl⟩ | ⟨hi, rfl⟩ | ⟨_, rfl⟩ | ⟨m, _, rfl⟩ |
    ⟨_, rfl⟩ | ⟨a, hi, rfl⟩ | ⟨m, tk, hi, _⟩
  · exact onBlock_keeps tw (.setTuning j _ d)
  · exact ⟨.refl, rfl, rfl, fun _ => rfl⟩
  · exact onBlock_keeps tw .startRun
  · exact onBlock_keeps tw .stopRun
  · exact absurd hi hreset
  · exact onBlock_keeps tw (.configError _)
  · exact onBlock_keeps tw (.clearSticky m)
  · exact onBlock_keeps tw (.configError _)
  · exact ⟨.refl, rfl, rfl, fun hw => by simp [twIsWrite_of_rd hi] at hw⟩
  · exact absurd hi ((decodeHost_not_frame tw).2 m tk)

/-! ### The obligations -/

/-- Settles O36: the frame step keeps the host's registers, and its result is put on the output port alone. -/
theorem frameStepKeepsControlState : Obligations.FrameStepKeepsControlState := by
  intro m t s
  obtain ⟨tuning, valid, run, cfgErr, cfgCause⟩ := frameStep_keeps_control Config.cfg s.block m t
  exact ⟨_, exec_frameOf m t s, tuning, valid, run, cfgErr, cfgCause, rfl, rfl⟩

/-- Settles O37: the engine's state, the ports and the pending events through each host operation. -/
theorem hostOperationsKeepEngineState : Obligations.HostOperationsKeepEngineState := by
  intro tw s t hreset h
  obtain ⟨⟨spec, mask, cause, frames, underruns, faults⟩, ports⟩ := exec_host_keeps_engine hreset h
  exact ⟨spec, mask, cause, frames, underruns, faults, ports⟩

/-- Settles O38: RUN through each thing an execution can do. -/
theorem runChangesOnlyByItsCommands : Obligations.RunChangesOnlyByItsCommands := by
  intro i s t h
  have kept : t.block.run = s.block.run →
      (s.block.run = true → t.block.run = false → i = .cmdStop ∨ i = .cmdReset) ∧
        (s.block.run = false → t.block.run = true → i = .cmdStart ∧ s.block.valid = 0b111111#6) := by
    intro e
    rw [e]
    exact ⟨by simp +contextual, by simp +contextual⟩
  rcases exec_cases h with ⟨j, d, _, rfl⟩ | ⟨_, rfl⟩ | ⟨hi, rfl⟩ | ⟨hi, rfl⟩ | ⟨hi, rfl⟩ | ⟨_, rfl⟩ | ⟨m, _, rfl⟩ |
    ⟨_, rfl⟩ | ⟨a, _, rfl⟩ | ⟨m, tk, _, rfl⟩
  · exact kept (by simp)
  · exact kept rfl
  · simp +contextual [hi, tuned_iff]
  · simp [hi]
  · simp [hi, Block.reset]
  · exact kept (by simp)
  · exact kept (by simp)
  · exact kept (by simp)
  · exact kept rfl
  · exact kept (by simp)

/-- Settles O39: only a setter's store and reset reach the tuning registers. -/
theorem tuningChangesOnlyByItsSetter : Obligations.TuningChangesOnlyByItsSetter := by
  intro i s t j h hreset hne
  rcases exec_cases h with ⟨k, d, rfl, rfl⟩ | ⟨_, rfl⟩ | ⟨_, rfl⟩ | ⟨_, rfl⟩ | ⟨hi, rfl⟩ | ⟨_, rfl⟩ | ⟨m, _, rfl⟩ |
    ⟨_, rfl⟩ | ⟨a, _, rfl⟩ | ⟨m, tk, _, rfl⟩
  · rw [onBlock_block] at hne ⊢
    obtain ⟨rfl, hvalue, hlegal⟩ := readTuning_setTuning_ne s.block hne
    rw [hvalue]
    exact ⟨rfl, hlegal⟩
  · exact absurd rfl hne
  · simp at hne
  · exact absurd rfl hne
  · exact absurd hi hreset
  · exact absurd rfl hne
  · exact absurd rfl hne
  · exact absurd rfl hne
  · exact absurd rfl hne
  · simp at hne

/-- Settles O41: under the invariant SYNTH leaves the snapshot's synthesis, and the frame step's three ends follow. -/
theorem frameUsesTheBanksOfItsSnapshot : Obligations.FrameUsesTheBanksOfItsSnapshot := by
  intro F C m t b hb
  have spec : (synth C (tagOf b.tuning) (noteUnderrun C t b)).spec =
      ⟨true, tagOf b.tuning, (synthesize C (tagOf b.tuning)).1⟩ :=
    synth_spec C _ (by simpa using fun h => (hb.spec_current h).2.1)
  refine ⟨spec, ?_⟩
  obtain ⟨hp, e⟩ | ⟨hp, o, ho, ⟨hfin, e⟩ | ⟨hfin, e⟩⟩ := frameStep_cases C m t b
  · simp [e, hp, silence]
  · rw [spec] at ho; subst ho
    simp [e, hp, hfin, spec, silence]
  · rw [spec] at ho; subst ho
    simp [e, hp, hfin, spec]

/-- Settles O52: neither the tag nor any demodulation reads ANTENNA_MODE. -/
theorem antennaModeHasNoEffect : Obligations.AntennaModeHasNoEffect := by
  intro F C m t b w
  exact frameStep_withTuning C m t rfl (framePatterns_antenna C m b.tuning w)

end Sys2Proof.Machine
end

section
/-! The block's invariant (spec 10 R31, R33, R42, R52; 20 R78): every operation on the block keeps it, a frame step
emits N finite patterns, and so every step of the machine keeps it. -/

namespace Sys2Proof.Machine

section BlockInvariant

variable {F : Type} {C : Cfg F} {b : Block F}

theorem legalTag_tagOf {x : Tuning} (h : ∀ i : Fin 6, legalTuning i (readTuning x i) = true) :
    legalTag (tagOf x) = true := by
  have center : pos x.center = true := h 0
  have bandwidth : pos x.bandwidth = true := h 1
  have notch : nonneg x.notch = true := h 2
  simp only [legalTag, tagOf, center, bandwidth, notch, Bool.and_self]

/-- A running block holds a legal value in every tuning register. -/
theorem BlockInv.legal_of_run (h : BlockInv C b) (hrun : b.run = true) (i : Fin 6) :
    legalTuning i (readTuning b.tuning i) = true := by
  refine h.written_legal i ?_
  rw [h.run_tuned hrun]
  fin_cases i <;> rfl

theorem blockInv_reset (C : Cfg F) : BlockInv C Block.reset where
  written_legal i hi := by simp [Block.reset] at hi
  unwritten_zero i _ := by fin_cases i <;> rfl
  run_tuned := nofun
  spec_current := nofun
  spec_empty _ := ⟨rfl, rfl, rfl⟩
  cfg_cause := ⟨Nat.zero_le _, nofun⟩
  fault_cause := ⟨Nat.zero_le _, nofun⟩

theorem configCode_legal (c : ConfigCause) : (configCode c).toNat ≤ 5 ∧ configCode c ≠ 0#4 := by
  cases c <;> decide

theorem faultCode_legal (c : FaultCause) : (faultCode c).toNat ≤ 2 ∧ faultCode c ≠ 0#4 := by
  cases c <;> decide

theorem BlockInv.configError (h : BlockInv C b) (c : ConfigCause) :
    BlockInv C (raiseEvent (.configError c) b) :=
  { h with cfg_cause := ⟨(configCode_legal c).1, fun _ => (configCode_legal c).2⟩ }

theorem BlockInv.frameFault (h : BlockInv C b) (c : FaultCause) : BlockInv C (raiseEvent (.frameFault c) b) :=
  { h with fault_cause := ⟨(faultCode_legal c).1, fun _ => (faultCode_legal c).2⟩ }

theorem BlockInv.setTuning (h : BlockInv C b) (i : Fin 6) (c : ConfigCause) (d : Word) :
    BlockInv C (setTuning i c d b) := by
  cases hd : legalTuning i d
  case false => rw [setTuning_of_illegal i c d b hd]; exact h.configError c
  case true =>
    rw [setTuning_of_legal i c d b hd]
    refine { h with written_legal := fun j hj => ?_, unwritten_zero := fun j hj => ?_, run_tuned := fun hr => ?_ }
    · rw [getLsbD_or_validBit] at hj
      by_cases hij : i = j
      · subst hij; simpa using hd
      · simpa [hij] using h.written_legal j (by simpa [hij] using hj)
    · simp only [getLsbD_or_validBit, Bool.or_eq_false_iff, decide_eq_false_iff_not] at hj
      simpa [hj.2] using h.unwritten_zero j hj.1
    · show b.valid ||| validBit i = 0b111111#6
      rw [h.run_tuned hr]
      fin_cases i <;> rfl

theorem BlockInv.startRun (h : BlockInv C b) : BlockInv C (startRun b) := by
  cases ht : tuned b.valid
  case false => rw [startRun_of_untuned b ht]; exact h.configError _
  case true => rw [startRun_of_tuned b ht]; exact { h with run_tuned := fun _ => (tuned_iff _).mp ht }

theorem BlockInv.stopRun (h : BlockInv C b) : BlockInv C (stopRun b) := { h with run_tuned := nofun }

theorem BlockInv.clearSticky (h : BlockInv C b) (m : Word) : BlockInv C (clearSticky m b) :=
  { h with
    cfg_cause := ⟨h.cfg_cause.1, fun hs => h.cfg_cause.2 (Bool.and_elim_left hs)⟩
    fault_cause := ⟨h.fault_cause.1, fun hs => h.fault_cause.2 (Bool.and_elim_left hs)⟩ }

theorem BlockInv.noteUnderrun (h : BlockInv C b) (t : FrameTick) : BlockInv C (noteUnderrun C t b) := by
  unfold Machine.noteUnderrun
  split
  · exact { h with }
  · exact h

theorem BlockInv.synth (h : BlockInv C b) {tag : Tag} (htag : legalTag tag = true) : BlockInv C (synth C tag b) := by
  obtain ⟨_, e⟩ | ⟨_, e⟩ := synth_cases C tag b
  · rw [e]; exact h
  · rw [e]; exact { h with spec_current := fun _ => ⟨htag, rfl, rfl⟩, spec_empty := nofun }

theorem BlockInv.emit (h : BlockInv C b) (o : List Word) : BlockInv C (emit o b).1 := { h with }

theorem BlockInv.frameStep (h : BlockInv C b) (hrun : b.run = true) (m : DemodMode) (t : FrameTick) :
    BlockInv C (frameStep C m t b).1 := by
  have synthesized : BlockInv C (Machine.synth C (tagOf b.tuning) (Machine.noteUnderrun C t b)) :=
    (h.noteUnderrun t).synth (legalTag_tagOf (h.legal_of_run hrun))
  obtain ⟨_, e⟩ | ⟨_, o, _, ⟨_, e⟩ | ⟨_, e⟩⟩ := frameStep_cases C m t b <;> rw [e]
  · exact ((h.noteUnderrun t).frameFault _).emit _
  · exact (synthesized.frameFault _).emit _
  · exact synthesized.emit o

/-- A frame step presents N finite patterns, from any block (20 R78). -/
theorem frameStep_emits_finite (C : Cfg F) (m : DemodMode) (t : FrameTick) (b : Block F) :
    (frameStep C m t b).2.length = C.n ∧ allFinite (frameStep C m t b).2 = true := by
  obtain ⟨_, e⟩ | ⟨_, o, rfl, ⟨_, e⟩ | ⟨hfin, e⟩⟩ := frameStep_cases C m t b <;> rw [e]
  · simp
  · simp
  · exact ⟨by simp, hfin⟩

end BlockInvariant

/-! ### The step -/

/-- An operation on the block alone keeps the machine's invariant when it keeps the block's. -/
theorem StateInv.onBlock {s : State} (h : StateInv s) {f : Block Value → Block Value}
    (hf : BlockInv Config.cfg (f s.block)) : StateInv (onBlock f s) := ⟨hf, h.port⟩

/-- Every instruction keeps the invariant; a frame operation does while RUN is set. -/
theorem exec_keeps_stateInv {i : Instr} {s t : State} (h : StateInv s)
    (hrun : ∀ m tk, i = frameOf m tk → s.block.run = true) (e : exec i s = .next t) : StateInv t := by
  rcases exec_cases e with ⟨j, d, _, rfl⟩ | ⟨_, rfl⟩ | ⟨_, rfl⟩ | ⟨_, rfl⟩ | ⟨_, rfl⟩ | ⟨_, rfl⟩ | ⟨m, _, rfl⟩ |
    ⟨_, rfl⟩ | ⟨a, _, rfl⟩ | ⟨m, tk, hi, rfl⟩
  · exact h.onBlock (h.block.setTuning j _ d)
  · exact h
  · exact h.onBlock h.block.startRun
  · exact h.onBlock h.block.stopRun
  · exact h.onBlock (blockInv_reset _)
  · exact h.onBlock (h.block.configError _)
  · exact h.onBlock (h.block.clearSticky m)
  · exact h.onBlock (h.block.configError _)
  · exact ⟨h.block, h.port⟩
  · refine ⟨h.block.frameStep (hrun m tk hi) m tk, ?_⟩
    rintro o ⟨⟩
    exact frameStep_emits_finite ..

/-- What a step can do: stay, or run one instruction after the ports are cleared; a frame operation only while RUN
is set (10 R40, 43 R211). -/
theorem step_cases {s t : State} (h : step s = .next t) :
    t = s ∨ ∃ rest i, exec i (beginTransition rest s) = .next t ∧
      ∀ m tk, i = frameOf m tk → s.block.run = true := by
  unfold step nextTransition at h
  split at h
  case h_1 => exact .inl (Host.Outcome.next.inj h).symm
  case h_2 e rest _ =>
    refine .inr ⟨rest, ?_⟩
    cases e with
    | bus tw => exact ⟨decodeHost tw, h, fun m tk he => absurd he ((decodeHost_not_frame tw).2 m tk)⟩
    | hwReset during => exact ⟨.cmdReset, h, fun m tk he => by cases m <;> cases he⟩
    | tick tk =>
      simp only [runEvent, runRequest, tickRequest, decode, beginTransition_block] at h
      cases hrun : s.block.run
      case false =>
        rw [decodeFrame_of_idle _ _ (by rw [selector_getLsbD_two, hrun])] at h
        exact ⟨.frameIdle tk, h, fun m _ he => by cases m <;> cases he⟩
      case true =>
        obtain ⟨m, hm⟩ | ⟨_, hm⟩ := decodeFrame_of_run (selector s.block.run s.block.tuning) tk
          (by rw [selector_getLsbD_two, hrun])
        · rw [hm] at h; exact ⟨frameOf m tk, h, fun _ _ _ => rfl⟩
        · rw [hm] at h; cases h

theorem StateInv.beginTransition {s : State} (h : StateInv s) (rest : List Event) :
    StateInv (beginTransition rest s) := ⟨h.block, nofun⟩

/-- Settles O58: the reset block meets the block's invariant, and nothing is presented. -/
theorem invariantHoldsAtReset : Obligations.InvariantHoldsAtReset := ⟨blockInv_reset _, nofun⟩

/-- Settles O59: a step stays or runs one instruction, and every instruction it can run keeps the invariant. -/
theorem stepKeepsTheInvariant : Obligations.StepKeepsTheInvariant := by
  intro s t hs h
  obtain rfl | ⟨rest, i, he, hrun⟩ := step_cases h
  · exact hs
  · exact exec_keeps_stateInv (hs.beginTransition rest) hrun he

end Sys2Proof.Machine
end

section
/-! The bus and the frame port (spec 20 R74, R76, R77, R80): what a pending event runs, which requests decode to
well-formed operations, what a frame tick's samples amount to, and which words of the register map an operation
leaves as they were. -/

namespace Sys2Proof.Machine

/-! ### Decoding -/

theorem decodeCommand_wellFormed (d : Word) : (decodeCommand d).wellFormed = true := by
  unfold decodeCommand
  split_ifs with nop start stop reset
  any_goals rfl
  have reserved : 3 < d.toNat := by bv_omega
  exact decide_eq_true reserved

/-- Every writable address has an arm of its own in the decoder (44 R253). -/
theorem eq_of_isWritable {a : Addr} (h : isWritable a = true) :
    a = addrCenter ∨ a = addrBandwidth ∨ a = addrNotch ∨ a = addrVolume ∨ a = addrAntenna ∨ a = addrDemod ∨
      a = addrCmd ∨ a = addrStatus := by
  revert a; decide

theorem decodeWrite_wellFormed (a : Addr) (d : Word) : (decodeWrite a d).wellFormed = true := by
  unfold decodeWrite
  split_ifs with center bandwidth notch volume antenna demod cmd status
  any_goals rfl
  · exact decodeCommand_wellFormed d
  · have refused : isWritable a = false := by
      rw [Bool.eq_false_iff]
      intro hw
      simpa [center, bandwidth, notch, volume, antenna, demod, cmd, status] using eq_of_isWritable hw
    simp [Instr.wellFormed, refused]

theorem decodeHost_wellFormed (tw : TransWord) : (decodeHost tw).wellFormed = true :=
  ite_of_both (Instr.wellFormed · = true) (decodeWrite_wellFormed _ _) rfl

theorem frameOf_wellFormed (m : DemodMode) (t : FrameTick) :
    (frameOf m t).wellFormed = decide (t.kIn < 2 ^ 16) := by
  cases m <;> rfl

/-- A frame tick decodes to the idle tick or to a mode's operation, with the samples it came with. -/
theorem decodeFrame_cases {sel : BitVec 3} {t : FrameTick} {i : Instr} (h : decodeFrame sel t = .ok i) :
    i = .frameIdle t ∨ ∃ m, i = frameOf m t := by
  cases hrun : sel.getLsbD 2
  case false =>
    rw [decodeFrame_of_idle sel t hrun] at h
    exact .inl (Except.ok.inj h).symm
  case true =>
    obtain ⟨m, hm⟩ | ⟨_, hm⟩ := decodeFrame_of_run sel t hrun
    · rw [hm] at h; exact .inr ⟨m, (Except.ok.inj h).symm⟩
    · rw [hm] at h; cases h

theorem decodeFrame_wellFormed {sel : BitVec 3} {t : FrameTick} {i : Instr} (h : decodeFrame sel t = .ok i)
    (ht : t.kIn < 2 ^ 16) : i.wellFormed = true := by
  obtain rfl | ⟨m, rfl⟩ := decodeFrame_cases h
  · exact decide_eq_true ht
  · rw [frameOf_wellFormed]; exact decide_eq_true ht

/-! ### The next transition -/

theorem step_of_nothing_pending {s : State} (h : s.inputs = []) : step s = .next s := by
  simp only [step, nextTransition, h]

theorem step_of_pending {s : State} {e : Event} {rest : List Event} (h : s.inputs = e :: rest) :
    step s = runEvent e (beginTransition rest s) := by
  simp only [step, nextTransition, h]

theorem runRequest_of_decode {r : Request} {i : Instr} (h : decode r = .ok i) (s : State) :
    runRequest r s = exec i s := by
  simp only [runRequest, h]

/-! ### The samples of a tick -/

theorem length_take_samples (n : Nat) (t : FrameTick) : (t.samples.take n).length = min t.kIn n := by
  rw [List.length_take, Nat.min_comm]

/-- A padded frame shows no more of a tick than its first `n` samples. -/
theorem paddedFrame_eq_take (n : Nat) (t : FrameTick) :
    paddedFrame n t = t.samples.take n ++ List.replicate (n - (t.samples.take n).length) 0#32 := by
  rw [length_take_samples, List.take_eq_take_min, Nat.min_comm]
  rfl

theorem isShort_eq_take (n : Nat) (t : FrameTick) :
    isShort n t = decide ((t.samples.take n).length < n) := by
  rw [length_take_samples]; rfl

section FrameAndMap

variable {F : Type} (C : Cfg F)

/-- A frame step reads a tick through its padded frame and its being short alone (43 R213). -/
theorem frameStep_congr {t t' : FrameTick} (m : DemodMode) (b : Block F)
    (hpad : paddedFrame C.n t = paddedFrame C.n t') (hshort : isShort C.n t = isShort C.n t') :
    frameStep C m t b = frameStep C m t' b := by
  have hnote : noteUnderrun C t b = noteUnderrun C t' b := by unfold noteUnderrun; rw [hshort]
  unfold frameStep
  rw [hpad, hnote]

/-! ### The register map -/

/-- The address of `x[j]` (20 R76). -/
def tuningAddr (j : Fin 6) : Addr := 0x10#7 + BitVec.ofNat 7 j.val

/-- The words of the register map that only the engine changes: the counters, the tag, the coefficient window
(20 R76). -/
def isEngineAddr (a : Addr) : Bool :=
  (0x0B ≤ a.toNat && a.toNat ≤ 0x0D) || (0x18 ≤ a.toNat && a.toNat ≤ 0x1A) || 0x40 ≤ a.toNat

variable {b b' : Block F} {a : Addr}

/-- All that a register-map word can depend on: STATUS, CAUSE, its tuning register, or the engine's state. -/
theorem readReg_congr (status : a = 0x09#7 → statusWord b' = statusWord b)
    (cause : a = 0x0A#7 → causeWord b' = causeWord b)
    (tuning : ∀ j, a = tuningAddr j → readTuning b'.tuning j = readTuning b.tuning j)
    (engine : isEngineAddr a = true → EngineKept b b') : readReg C b' a = readReg C b a := by
  have kept (h : 0x0B ≤ a.toNat ∧ a.toNat ≤ 0x0D ∨ 0x18 ≤ a.toNat ∧ a.toNat ≤ 0x1A ∨ 0x40 ≤ a.toNat) :
      EngineKept b b' := engine (by simpa [isEngineAddr, or_assoc] using h)
  have spec (h : 0x18 ≤ a.toNat ∧ a.toNat ≤ 0x1A ∨ 0x40 ≤ a.toNat) : b'.spec = b.spec := (kept (.inr h)).1
  unfold readReg
  split
  case h_1 | h_2 | h_3 | h_4 | h_5 | h_6 => rfl
  case h_7 h => exact status (BitVec.eq_of_toNat_eq h)
  case h_8 h => exact cause (BitVec.eq_of_toNat_eq h)
  case h_9 h | h_10 h | h_11 h =>
    obtain ⟨_, _, _, frames, underruns, faults⟩ := kept (by omega)
    assumption
  case h_12 h => exact tuning 0 (BitVec.eq_of_toNat_eq h)
  case h_13 h => exact tuning 1 (BitVec.eq_of_toNat_eq h)
  case h_14 h => exact tuning 2 (BitVec.eq_of_toNat_eq h)
  case h_15 h => exact tuning 3 (BitVec.eq_of_toNat_eq h)
  case h_16 h => exact tuning 4 (BitVec.eq_of_toNat_eq h)
  case h_17 h => exact tuning 5 (BitVec.eq_of_toNat_eq h)
  case h_18 h | h_19 h | h_20 h => rw [spec (by omega)]
  case h_21 =>
    by_cases window : 0x40 ≤ a.toNat
    · simp only [windowRead, spec (.inr window)]
    · rw [windowRead_gap C b' (by omega), windowRead_gap C b (by omega)]

/-- A setter, accepted or refused, leaves every word but its register, STATUS and CAUSE. -/
theorem readReg_setTuning (i : Fin 6) (c : ConfigCause) (d : Word) (register : a ≠ tuningAddr i)
    (status : a ≠ 0x09#7) (cause : a ≠ 0x0A#7) :
    readReg C (setTuning i c d b) a = readReg C b a := by
  refine readReg_congr C (absurd · status) (absurd · cause) (fun j hj => ?_) fun _ => .setTuning i c d
  by_contra changed
  obtain ⟨rfl, _⟩ := readTuning_setTuning_ne b changed
  exact register hj

/-- A refused write leaves every word but STATUS and CAUSE. -/
theorem readReg_configError (c : ConfigCause) (status : a ≠ 0x09#7) (cause : a ≠ 0x0A#7) :
    readReg C (raiseEvent (.configError c) b) a = readReg C b a :=
  readReg_congr C (absurd · status) (absurd · cause) (fun _ _ => rfl) fun _ => .configError c

theorem readReg_startRun (status : a ≠ 0x09#7) (cause : a ≠ 0x0A#7) :
    readReg C (startRun b) a = readReg C b a :=
  readReg_congr C (absurd · status) (absurd · cause) (fun _ _ => by rw [startRun_tuning]) fun _ => .startRun

theorem readReg_stopRun (status : a ≠ 0x09#7) : readReg C (stopRun b) a = readReg C b a :=
  readReg_congr C (absurd · status) (fun _ => rfl) (fun _ _ => rfl) fun _ => .stopRun

theorem readReg_clearSticky (m : Word) (status : a ≠ 0x09#7) :
    readReg C (clearSticky m b) a = readReg C b a :=
  readReg_congr C (absurd · status) (fun _ => rfl) (fun _ _ => rfl) fun _ => .clearSticky m

/-- A frame step leaves every word but STATUS, CAUSE and the engine's. -/
theorem readReg_frameStep (m : DemodMode) (t : FrameTick) (status : a ≠ 0x09#7) (cause : a ≠ 0x0A#7)
    (engine : isEngineAddr a = false) : readReg C (frameStep C m t b).1 a = readReg C b a :=
  readReg_congr C (absurd · status) (absurd · cause) (fun _ _ => by rw [frameStep_tuning])
    fun h => absurd h (by simp [engine])

end FrameAndMap

/-- The words that a setter may change are its register, STATUS and CAUSE (20 R76). -/
theorem mayChange_setterOf (j : Fin 6) (d : Word) (a : Addr) :
    mayChange (setterOf j d) a = (a == tuningAddr j || a == 0x09#7 || a == 0x0A#7) := by
  fin_cases j <;> rfl

/-- The words that a frame operation may change are STATUS, CAUSE and the engine's (20 R76). -/
theorem mayChange_frameOf (m : DemodMode) (t : FrameTick) (a : Addr) :
    mayChange (frameOf m t) a = (a == 0x09#7 || a == 0x0A#7 || isEngineAddr a) := by
  have words : ((0x09 ≤ a.toNat && a.toNat ≤ 0x0D) || (0x18 ≤ a.toNat && a.toNat ≤ 0x1A) || 0x40 ≤ a.toNat) =
      (a == 0x09#7 || a == 0x0A#7 || isEngineAddr a) := by
    revert a; decide
  cases m <;> exact words

/-! ### The obligations -/

/-- Settles O35: what each thing an execution can do leaves of the register map. -/
theorem registersOutsideTheEffectKeepTheirValue : Obligations.RegistersOutsideTheEffectKeepTheirValue := by
  intro i s t a h hkeep
  rcases exec_cases h with ⟨j, d, rfl, rfl⟩ | ⟨_, rfl⟩ | ⟨rfl, rfl⟩ | ⟨rfl, rfl⟩ | ⟨rfl, rfl⟩ | ⟨⟨d, rfl⟩, rfl⟩ |
    ⟨m, rfl, rfl⟩ | ⟨⟨r, d, rfl⟩, rfl⟩ | ⟨r, _, rfl⟩ | ⟨m, tk, rfl, rfl⟩
  · rw [mayChange_setterOf] at hkeep
    simp only [Bool.or_eq_false_iff, beq_eq_false_iff_ne] at hkeep
    obtain ⟨⟨register, status⟩, cause⟩ := hkeep
    exact readReg_setTuning _ j _ d register status cause
  · rfl
  · obtain ⟨status, cause⟩ := by simpa [mayChange] using hkeep
    exact readReg_startRun _ status cause
  · exact readReg_stopRun _ (by simpa [mayChange] using hkeep)
  · exact absurd hkeep (by simp [mayChange])
  · obtain ⟨status, cause⟩ := by simpa [mayChange] using hkeep
    exact readReg_configError _ _ status cause
  · exact readReg_clearSticky _ m (by simpa [mayChange] using hkeep)
  · obtain ⟨status, cause⟩ := by simpa [mayChange] using hkeep
    exact readReg_configError _ _ status cause
  · rfl
  · rw [mayChange_frameOf] at hkeep
    simp only [Bool.or_eq_false_iff, beq_eq_false_iff_ne] at hkeep
    obtain ⟨⟨status, cause⟩, engine⟩ := hkeep
    exact readReg_frameStep _ m tk status cause engine

/-- Settles O5: the decoder's last arms are reached only with a reserved opcode or an address not writable. -/
theorem decodedInstructionsAreWellFormed : Obligations.DecodedInstructionsAreWellFormed := by
  intro r i h htick
  cases r with
  | host tw => cases h; exact decodeHost_wellFormed tw
  | frame sel t => exact decodeFrame_wellFormed h (htick sel t rfl)

/-- Settles O33: a position below the count lies in the samples, any other in the zeros after them. -/
theorem paddingIsTailSilence : Obligations.PaddingIsTailSilence := by
  intro n t i
  rw [paddedFrame_eq_take]
  have count := length_take_samples n t
  split
  case isTrue hi =>
    rw [List.getElem?_append_left (by omega), List.getElem?_take_of_lt (by omega)]
  case isFalse hi =>
    rw [List.getElem?_append_right (by omega), List.getElem?_replicate, count]
    simp only [show i - min t.kIn n < n - min t.kIn n ↔ i < n by omega]

/-- Settles O34: the padded frame and its being short are functions of the first N samples. -/
theorem samplesBeyondNAreNotSeen : Obligations.SamplesBeyondNAreNotSeen := by
  intro m t t' s hsame
  rw [exec_frameOf, exec_frameOf, frameStep_congr Config.cfg (t' := t') m s.block]
  · rw [paddedFrame_eq_take, paddedFrame_eq_take, hsame]
  · rw [isShort_eq_take, isShort_eq_take, hsame]

/-- Settles O6: the oldest pending event makes its request, and the request runs as it decodes. -/
theorem stepRunsTheDecodedInstruction : Obligations.StepRunsTheDecodedInstruction := by
  intro s rest
  refine ⟨fun tw h => ?_, fun t i h hdecode => ?_, step_of_nothing_pending⟩
  · rw [step_of_pending h]
    exact runRequest_of_decode (r := .host tw) rfl _
  · rw [step_of_pending h]
    exact runRequest_of_decode hdecode _

/-- Settles O20: the decoder reads only the address of a word that is no write, and a read only answers on the bus. -/
theorem readsReturnTheRegisterAndChangeNothing : Obligations.ReadsReturnTheRegisterAndChangeNothing := by
  refine ⟨fun a d => ?_, fun _ _ => rfl⟩
  simp [decodeHost]

end Sys2Proof.Machine
end

section
/-! The encoding (spec 30 R100 to R106): decoder and encoder are inverse to each other, the decoder picks the
heaviest row of the table that matches, and a word or a tick placed for the next step is what that step runs. -/

namespace Sys2Proof.Machine

/-! ### What the decoder answers on a composed word -/

@[simp] theorem decodeHost_write (a : Addr) (d : Word) : decodeHost (twOf true a d) = decodeWrite a d := by
  simp [decodeHost]

@[simp] theorem decodeHost_read (a : Addr) (d : Word) : decodeHost (twOf false a d) = .rd a := by
  simp [decodeHost]

theorem decodeCommand_of_reserved {d : Word} (h : 3 < d.toNat) : decodeCommand d = .cmdRsvd d := by
  unfold decodeCommand
  rw [if_neg, if_neg, if_neg, if_neg] <;> rintro rfl <;> exact absurd h (by decide)

theorem decodeWrite_of_refused {a : Addr} (d : Word) (h : isWritable a = false) :
    decodeWrite a d = .wrRefused a d := by
  unfold decodeWrite
  rw [if_neg, if_neg, if_neg, if_neg, if_neg, if_neg, if_neg, if_neg] <;> rintro rfl <;> exact absurd h (by decide)

/-! ### The encoder undoes the decoder -/

theorem encode_decodeCommand (d : Word) : encode (decodeCommand d) = .host (twOf true addrCmd d) := by
  unfold decodeCommand
  split_ifs with nop start stop reset <;> subst_vars <;> rfl

theorem encode_decodeWrite (a : Addr) (d : Word) : encode (decodeWrite a d) = .host (twOf true a d) := by
  unfold decodeWrite
  split_ifs with center bandwidth notch volume antenna demod cmd status <;> subst_vars
  any_goals rfl
  exact encode_decodeCommand d

theorem encode_decodeHost_of_write {tw : TransWord} (h : twIsWrite tw = true) :
    encode (decodeHost tw) = .host tw := by
  rw [decodeHost, if_pos h, encode_decodeWrite, ← h, twOf_fields]

/-! ### Fields under a mask -/

theorem twIsWrite_and (x y : TransWord) : twIsWrite (x &&& y) = (twIsWrite x && twIsWrite y) := BitVec.getLsbD_and

theorem twAddr_and (x y : TransWord) : twAddr (x &&& y) = twAddr x &&& twAddr y := BitVec.extractLsb'_and

theorem twData_and (x y : TransWord) : twData (x &&& y) = twData x &&& twData y := BitVec.extractLsb'_and

/-- The mask of the address bits leaves the word of a read with no data (30 R100). -/
theorem and_addr_mask (tw : TransWord) : tw &&& 0x7F00000000#40 = twOf false (twAddr tw) 0#32 := by
  have addr : twAddr 0x7F00000000#40 = BitVec.allOnes 7 := by decide
  have data : twData 0x7F00000000#40 = 0#32 := by decide
  have write : twIsWrite 0x7F00000000#40 = false := by decide
  rw [← twOf_fields (tw &&& _), twIsWrite_and, twAddr_and, twData_and, write, addr, data, Bool.and_false,
    BitVec.and_allOnes, BitVec.and_zero]

/-! ### The rows that match a word -/

/-- The encoding of what a word decodes to matches the row of that operation. -/
theorem decodeHost_rowMatch (tw : TransWord) : Laws.RowMatch.Statement (decodeHost tw) := by
  refine decodeHost_induction _ (fun j d => ?_) Laws.RowMatch.cmdNop Laws.RowMatch.cmdStart Laws.RowMatch.cmdStop
    Laws.RowMatch.cmdReset Laws.RowMatch.cmdRsvd Laws.RowMatch.w1cStatus Laws.RowMatch.wrRefused Laws.RowMatch.rd tw
  match j with
  | 0 => exact Laws.RowMatch.wrCenter d
  | 1 => exact Laws.RowMatch.wrBandwidth d
  | 2 => exact Laws.RowMatch.wrNotch d
  | 3 => exact Laws.RowMatch.wrVolume d
  | 4 => exact Laws.RowMatch.wrAntenna d
  | 5 => exact Laws.RowMatch.wrDemod d

/-- The row named by what a word decodes to matches the word, a read's ignored data bits included. -/
theorem decodeHost_row_matches (tw : TransWord) :
    ∃ r ∈ hostRows, r.mnemonic = mnemonicOf (decodeHost tw) ∧ rowMatches r tw = true := by
  cases hw : twIsWrite tw
  case true =>
    have matched := decodeHost_rowMatch tw (decodeHost_wellFormed tw)
    rwa [encode_decodeHost_of_write hw] at matched
  case false =>
    rw [← twOf_fields tw, hw, decodeHost_read]
    refine ⟨⟨"RD", 0x0000000000#40, 0x8000000000#40⟩, by decide, rfl, ?_⟩
    rw [rowMatches, Laws.RowMatch.first_bit_mask]; decide

theorem and_mask_of_rowMatches {w : Nat} {r : OpRow w} {word : BitVec w} (h : rowMatches r word = true) :
    word &&& r.mask = r.pattern := eq_of_beq h

/-- Three kinds of row (30 R104): the mask is one bit; or it is the first byte, and the match is a write to a
writable address; or it is the whole word, and the match decodes to the row's own operation. -/
theorem hostRows_kinds : ∀ r ∈ hostRows,
    maskWeight r = 1 ∨
    (maskWeight r = 8 ∧ r.mask = 0xFF00000000#40 ∧ twIsWrite r.pattern = true ∧
      isWritable (twAddr r.pattern) = true) ∨
    (maskWeight r = 40 ∧ r.mask = BitVec.allOnes 40 ∧ r.mnemonic = mnemonicOf (decodeHost r.pattern)) := by
  decide

/-- Masks of one weight are one mask, and a mask and a match make one row (30 R104). -/
theorem hostRows_inj : ∀ r ∈ hostRows, ∀ r' ∈ hostRows, maskWeight r = maskWeight r' →
    r.mask = r'.mask ∧ (r.pattern = r'.pattern → r = r') := by
  decide

theorem hostRows_mnemonic_inj : ∀ r ∈ hostRows, ∀ r' ∈ hostRows, r.mnemonic = r'.mnemonic → r = r' := by
  decide

/-- Every row but the two that fix the write bit alone has at least the first byte in its mask (30 R104). -/
theorem hostRows_weight_ge : ∀ r ∈ hostRows,
    1 ≤ maskWeight r ∧ (r.mnemonic ∉ ["WR.REFUSED", "RD"] → 8 ≤ maskWeight r) := by
  decide

theorem mnemonicOf_decodeCommand (d : Word) : mnemonicOf (decodeCommand d) ∉ ["WR.REFUSED", "RD"] := by
  unfold decodeCommand
  split_ifs <;> exact of_decide_eq_true rfl

theorem mnemonicOf_decodeWrite_of_writable {a : Addr} (d : Word) (h : isWritable a = true) :
    mnemonicOf (decodeWrite a d) ∉ ["WR.REFUSED", "RD"] := by
  unfold decodeWrite
  split_ifs with center bandwidth notch volume antenna demod cmd status
  case neg => simpa [center, bandwidth, notch, volume, antenna, demod, cmd, status] using eq_of_isWritable h
  any_goals exact of_decide_eq_true rfl
  exact mnemonicOf_decodeCommand d

/-- Of a row whose mask is the first byte, the word has the write bit and the address. -/
theorem fields_of_byte_row {r : OpRow 40} {tw : TransWord} (hmask : r.mask = 0xFF00000000#40)
    (h : rowMatches r tw = true) : twIsWrite tw = twIsWrite r.pattern ∧ twAddr tw = twAddr r.pattern := by
  have write : twIsWrite 0xFF00000000#40 = true := by decide
  have addr : twAddr 0xFF00000000#40 = BitVec.allOnes 7 := by decide
  rw [← and_mask_of_rowMatches h, hmask, twIsWrite_and, twAddr_and, write, addr, Bool.and_true, BitVec.and_allOnes]
  exact ⟨rfl, rfl⟩

/-- No row that matches a word is heavier than the row the word decodes to. -/
theorem maskWeight_le_of_decoded {r r' : OpRow 40} {tw : TransWord} (hr : r ∈ hostRows) (hr' : r' ∈ hostRows)
    (hname : r.mnemonic = mnemonicOf (decodeHost tw)) (h : rowMatches r' tw = true) :
    maskWeight r' ≤ maskWeight r := by
  obtain ⟨positive, byte⟩ := hostRows_weight_ge r hr
  obtain light | ⟨weight, mask, write, writable⟩ | ⟨_, mask, name⟩ := hostRows_kinds r' hr'
  · rwa [light]
  · obtain ⟨hwrite, haddr⟩ := fields_of_byte_row mask h
    rw [weight]
    refine byte ?_
    rw [hname, decodeHost, if_pos (hwrite.trans write)]
    exact mnemonicOf_decodeWrite_of_writable _ (haddr ▸ writable)
  · have word : tw = r'.pattern := by rw [← and_mask_of_rowMatches h, mask, BitVec.and_allOnes]
    rw [hostRows_mnemonic_inj r hr r' hr' (by rw [hname, name, word])]

/-! ### Placing a request for the next step -/

/-- A running block whose mode register holds the selector's mode code forms that selector (30 R105). -/
theorem selector_placed (sel : BitVec 3) (x : Tuning) (h : sel.getLsbD 2 = true) :
    selector true { x with demod := (sel.extractLsb' 0 2).setWidth 32 } = sel := by
  change BitVec.ofBool true ++ ((sel.extractLsb' 0 2).setWidth 32 : Word).extractLsb' 0 2 = sel
  revert sel; decide

theorem placeRequest_inputs_host (tw : TransWord) (s : State) :
    (placeRequest (.host tw) s).inputs = .bus tw :: s.inputs := rfl

theorem placeRequest_inputs_frame (sel : BitVec 3) (t : FrameTick) (s : State) :
    (placeRequest (.frame sel t) s).inputs = .tick t :: s.inputs := rfl

theorem placeRequest_block_host (tw : TransWord) (s : State) : (placeRequest (.host tw) s).block = s.block := rfl

/-- Placing a tick sets RUN, and DEMOD_MODE where the selector has the RUN bit, and nothing else (log 3). -/
theorem placeRequest_block_frame (sel : BitVec 3) (t : FrameTick) (s : State) :
    (placeRequest (.frame sel t) s).block = { s.block with
      run := sel.getLsbD 2
      tuning := { s.block.tuning with
        demod := if sel.getLsbD 2 then (sel.extractLsb' 0 2).setWidth 32 else s.block.tuning.demod } } := by
  simp only [placeRequest]
  cases sel.getLsbD 2 <;> rfl

/-- The tick that was placed makes a request that decodes as the placed one: the same one with the RUN bit, an
idle one without it. -/
theorem decode_tickRequest_placed (sel : BitVec 3) (t : FrameTick) (s : State) :
    decode (tickRequest (placeRequest (.frame sel t) s) t) = decode (.frame sel t) := by
  rw [tickRequest, placeRequest_block_frame]
  cases hrun : sel.getLsbD 2
  case false =>
    exact (decodeFrame_of_idle _ t (selector_getLsbD_two ..)).trans (decodeFrame_of_idle sel t hrun).symm
  case true => simp only [if_true, selector_placed sel _ hrun]

/-- A placed request is what the next step runs (log 3). -/
theorem step_placeRequest {r : Request} {i : Instr} (h : decode r = .ok i) (s : State) :
    step (placeRequest r s) = exec i (beginTransition s.inputs (placeRequest r s)) := by
  cases r with
  | host tw =>
    rw [step_of_pending (placeRequest_inputs_host tw s)]
    exact runRequest_of_decode h _
  | frame sel t =>
    rw [step_of_pending (placeRequest_inputs_frame sel t s)]
    exact runRequest_of_decode ((decode_tickRequest_placed sel t s).trans h) _

theorem decode_of_decodeTableWord {nbits w : Nat} {i : Instr} (h : decodeTableWord nbits w = some i) :
    decode (tableRequest nbits w) = .ok i := by
  unfold decodeTableWord at h
  split at h
  · next e => rw [e, Option.some.inj h]
  · cases h

/-! ### The obligations -/

/-- Settles O1: a refused address and a reserved opcode pass the decoder's tests by being well-formed; every other
operand is read back from its field. -/
theorem decodeEncodeRoundTrip : Obligations.DecodeEncodeRoundTrip := by
  intro i hwf
  cases i with
  | cmdRsvd d =>
    have reserved : decodeWrite addrCmd d = .cmdRsvd d := decodeCommand_of_reserved (of_decide_eq_true hwf)
    simp [encode, decode, reserved]
  | wrRefused a d =>
    have refused : isWritable a = false := by simpa [Instr.wellFormed] using hwf
    simp [encode, decode, decodeWrite_of_refused d refused]
  | rd a => simp [encode, decode]
  | frameIdle t | frameAm t | frameFm t | framePt t => rfl
  | _ => simp only [encode, decode, decodeHost_write]; rfl

/-- Settles O2: by the fields of the word, which a write keeps and of which a read drops the data. -/
theorem hostWordsReencode : Obligations.HostWordsReencode := by
  refine fun tw => ⟨encode_decodeHost_of_write, fun read => ?_⟩
  rw [and_addr_mask, decodeHost, read]
  rfl

/-- Settles O3: the row the word decodes to is the heaviest that matches, and two matching rows of one weight are
one row. -/
theorem decoderPicksTheMostSpecificRow : Obligations.DecoderPicksTheMostSpecificRow := by
  intro tw
  obtain ⟨r, hr, hname, hmatch⟩ := decodeHost_row_matches tw
  refine ⟨r, hr, hname, hmatch, fun r' hr' hmatch' hne => ?_⟩
  refine lt_of_le_of_ne (maskWeight_le_of_decoded hr hr' hname hmatch') fun weight => hne ?_
  obtain ⟨mask, same⟩ := hostRows_inj r' hr' r hr weight
  exact same (by rw [← and_mask_of_rowMatches hmatch', mask, and_mask_of_rowMatches hmatch])

/-- Settles O7: the step runs the placed request, on the placed state with its ports cleared. -/
theorem placedWordRunsNext : Obligations.PlacedWordRunsNext := by
  intro s nbits w i h
  refine ⟨beginTransition s.inputs (s.withFetchWord nbits w),
    step_placeRequest (decode_of_decodeTableWord h) s, rfl, rfl, rfl, fun host => ?_, fun frame => ?_⟩
  · rw [beginTransition_block, State.withFetchWord, tableRequest, if_neg (by omega), placeRequest_block_host]
  · rw [beginTransition_block, State.withFetchWord, tableRequest, if_pos frame, placeRequest_block_frame]

/-- Settles O4: the table's words, computed; a selector without its RUN bit is idle whatever the mode bits. -/
theorem specWordsDecode : Obligations.SpecWordsDecode :=
  ⟨by decide, by decide, by decide, by decide, by decide, by decide, by decide, decodeFrame_of_idle,
    fun _ => ⟨rfl, rfl, rfl, rfl⟩⟩

/-- Settles O8: by the selector that RUN and the mode form, and what it decodes to. -/
theorem runAndModeSelectTheFrameOperation : Obligations.RunAndModeSelectTheFrameOperation := by
  intro s t rest h
  obtain ⟨-, tick, -⟩ := stepRunsTheDecodedInstruction s rest
  refine ⟨fun idle => ?_, fun run => ⟨fun mode => ?_, fun mode => ?_, fun mode => ?_, fun mode => ?_⟩⟩
  · exact tick t (.frameIdle t) h (decodeFrame_of_idle _ t (by rw [selector_getLsbD_two, idle]))
  · exact tick t (.frameAm t) h (by rw [selector, run, mode]; rfl)
  · exact tick t (.frameFm t) h (by rw [selector, run, mode]; rfl)
  · exact tick t (.framePt t) h (by rw [selector, run, mode]; rfl)
  · have reserved : tickRequest s t = .frame 7#3 t := by rw [tickRequest, selector, run, mode]; rfl
    calc step s = runRequest (tickRequest s t) (beginTransition rest s) := step_of_pending h
      _ = .refused .reservedSelector := by rw [reserved]; rfl

end Sys2Proof.Machine
end

section
/-! Coefficient synthesis (spec 40 R130 to R136, 60 R283): CHK keeps the finite banks, each mask bit is the missing bank
of its stage, and what a frame step does to FilterSpec, SYN_MASK and SYNERR is what SYNTH does. -/

namespace Sys2Proof.Machine

section Synthesis

variable {F : Type} (C : Cfg F)

/-! ### The stage decisions -/

theorem chk_eq_filter (M : Num F) {k : Nat} (r : Option (Bank F k)) : chk M r = r.filter (bankFinite M) := by
  cases r with
  | none => rfl
  | some c => simp only [chk, Option.filter]

theorem decideStage_eq_filter (M : Num F) {k : Nat} (r : Option (Bank F k)) :
    decideStage M r = (r.filter (bankFinite M), (r.filter (bankFinite M)).isNone) := by
  rw [decideStage, chk_eq_filter]

theorem bpfDecide_bank (lo hi : F) :
    (bpfDecide C lo hi).1 = if C.num.le hi lo then none else (C.syn.bpf lo hi).filter (bankFinite C.num) := by
  rw [bpfDecide, decideStage_eq_filter]; split <;> rfl

theorem bpfDecide_error (lo hi : F) : (bpfDecide C lo hi).2 = (bpfDecide C lo hi).1.isNone := by
  rw [bpfDecide, decideStage_eq_filter]; split <;> rfl

theorem notchDecide_bank (fn : F) :
    (notchDecide C fn).1 = if C.num.lt C.zero fn && C.num.lt fn C.nyqf
      then (C.syn.notch fn).filter (bankFinite C.num) else none := by
  rw [notchDecide, decideStage_eq_filter]
  cases C.num.lt C.zero fn
  · rfl
  · cases C.num.lt fn C.nyqf <;> rfl

/-- A disabled notch has no bank and no error (40 R133). -/
theorem notchDecide_error (fn : F) :
    (notchDecide C fn).2 = (C.num.lt C.zero fn && (notchDecide C fn).1.isNone) := by
  rw [notchDecide, decideStage_eq_filter]
  cases C.num.lt C.zero fn
  · rfl
  · cases C.num.lt fn C.nyqf <;> rfl

/-- The bits of SYN_MASK: band-pass, notch, low-pass (60 R283). -/
theorem getLsbD_mask (lp no bp : Bool) :
    let mask := BitVec.ofBool lp ++ BitVec.ofBool no ++ BitVec.ofBool bp
    mask.getLsbD 0 = bp ∧ mask.getLsbD 1 = no ∧ mask.getLsbD 2 = lp := by
  revert lp no bp; decide

/-! ### SYNTH inside a frame step -/

/-- Past the input check a frame step leaves FilterSpec, SYN_MASK and SYNERR as SYNTH does (43 R210). -/
theorem frameStep_synthesizes (m : DemodMode) (t : FrameTick) (b : Block F)
    (h : allFinite (paddedFrame C.n t) = true) :
    (frameStep C m t b).1.synErr = (synth C (tagOf b.tuning) (noteUnderrun C t b)).synErr ∧
      (frameStep C m t b).1.synMask = (synth C (tagOf b.tuning) (noteUnderrun C t b)).synMask ∧
      (frameStep C m t b).1.spec = (synth C (tagOf b.tuning) (noteUnderrun C t b)).spec := by
  obtain ⟨hp, -⟩ | ⟨-, o, -, ⟨-, e⟩ | ⟨-, e⟩⟩ := frameStep_cases C m t b
  · simp [h] at hp
  · simp [e]
  · simp [e]

/-- A frame step that fails its input check synthesizes nothing (43 R215). -/
theorem frameStep_without_synthesis (m : DemodMode) (t : FrameTick) (b : Block F)
    (h : allFinite (paddedFrame C.n t) = false) :
    (frameStep C m t b).1.synErr = b.synErr ∧ (frameStep C m t b).1.synMask = b.synMask ∧
      (frameStep C m t b).1.spec = b.spec := by
  obtain ⟨-, e⟩ | ⟨hp, -⟩ := frameStep_cases C m t b
  · simp [e]
  · simp [h] at hp

/-- The emitted frame depends on FilterSpec by the banks that SYNTH leaves, and by nothing else. -/
theorem frameStep_frame (m : DemodMode) (t : FrameTick) (b : Block F) :
    (frameStep C m t b).2 =
      let banks := (synth C (tagOf b.tuning) (noteUnderrun C t b)).spec.banks
      let o := framePatterns C m b.tuning banks (paddedFrame C.n t)
      if allFinite (paddedFrame C.n t) && allFinite o then o else silence C.n := by
  obtain ⟨hp, e⟩ | ⟨hp, o, rfl, ⟨ho, e⟩ | ⟨ho, e⟩⟩ := frameStep_cases C m t b
  · simp [e, hp]
  · simp [e, hp, ho]
  · simp [e, hp, ho]

theorem specIsCurrent_noteUnderrun (tag : Tag) (t : FrameTick) (b : Block F) :
    specIsCurrent tag (noteUnderrun C t b) ↔ specIsCurrent tag b := by
  rw [specIsCurrent, noteUnderrun_spec]

end Synthesis

theorem not_specIsCurrent_iff {F : Type} {tag : Tag} {b : Block F} :
    ¬ specIsCurrent tag b ↔ b.spec.specValid = false ∨ b.spec.tag ≠ tag := by
  rw [not_and_or, Bool.not_eq_true]

/-- Settles O40: the banks and bits of the three stage decisions. -/
theorem synthesisFollowsTheStageRules : Obligations.SynthesisFollowsTheStageRules := by
  intro F C tag M fc h fn lo hi r
  obtain ⟨bpfBit, notchBit, lpfBit⟩ := getLsbD_mask (lpfDecide C).2 (notchDecide C fn).2 (bpfDecide C lo hi).2
  refine ⟨bpfDecide_bank C lo hi, notchDecide_bank C fn, chk_eq_filter M _, ?_, ?_, lpfBit⟩
  · exact bpfBit.trans (bpfDecide_error C lo hi)
  · exact notchBit.trans (notchDecide_error C fn)

/-- Settles O42: SYNTH's two cases, and a frame step with and without SYNTH. -/
theorem synthesisErrorOncePerChange : Obligations.SynthesisErrorOncePerChange := by
  intro F C b
  refine ⟨fun tag valid current => synth_of_current C tag b ⟨valid, current⟩,
    fun tag stale => synth_of_stale C tag b (not_specIsCurrent_iff.mpr stale),
    fun m t => ⟨fun valid current => ?_, fun stale hp => ?_, frameStep_without_synthesis C m t b⟩⟩
  · cases hp : allFinite (paddedFrame C.n t) with
    | false => exact frameStep_without_synthesis C m t b hp
    | true =>
      have kept := synth_of_current C _ _ ((specIsCurrent_noteUnderrun C _ t b).mpr ⟨valid, current⟩)
      simpa [kept] using frameStep_synthesizes C m t b hp
  · have written := synth_of_stale C _ _
      ((specIsCurrent_noteUnderrun C (tagOf b.tuning) t b).not.mpr (not_specIsCurrent_iff.mpr stale))
    simpa [written] using frameStep_synthesizes C m t b hp

/-- Settles O43: cached or not, SYNTH leaves the synthesis of the snapshot. -/
theorem lazyAndEagerSynthesisEmitTheSameFrame : Obligations.LazyAndEagerSynthesisEmitTheSameFrame := by
  intro F C m t b hb
  have lazy := synth_spec C (tagOf b.tuning) (b := noteUnderrun C t b) (by
    simpa using fun valid => (hb.spec_current valid).2.1)
  have eager := synth_spec C (tagOf b.tuning)
    (b := noteUnderrun C t { b with spec := { b.spec with specValid := false } }) (by simp)
  simp only [frameStep_frame, lazy, eager]

end Sys2Proof.Machine
end

section
/-! The sections of SYN_REF (spec 40 R138 to R142): a pole inside the unit circle gives a stable section, the bilinear
transform takes the left half plane there, and every analogue pole of R140 and R141 lies in the left half plane. -/

namespace Sys2Proof.Machine

/-! ### Stability -/

/-- Both poles of the section lie inside the unit circle (SP6, 40 R138). -/
def StableSection (s : Biquad ℝ) : Prop := |s.a2| < 1 ∧ |s.a1| < 1 + s.a2

/-- The section whose poles are `z` and its conjugate is stable when `z` is inside the unit circle. -/
theorem stableSection_of_pole {s : Biquad ℝ} {z : ℂ} (hz : ‖z‖ < 1) (h1 : s.a1 = -2 * z.re) (h2 : s.a2 = ‖z‖ ^ 2) :
    StableSection s := by
  have size : ‖z‖ ^ 2 < 1 := pow_lt_one₀ (norm_nonneg z) hz two_ne_zero
  refine ⟨by rwa [h2, abs_of_nonneg (sq_nonneg _)], ?_⟩
  calc |s.a1| = 2 * |z.re| := by rw [h1, abs_mul]; norm_num
    _ ≤ 2 * ‖z‖ := by gcongr; exact Complex.abs_re_le_norm z
    _ < 1 + ‖z‖ ^ 2 := by nlinarith [sq_pos_of_pos (sub_pos.mpr hz)]
    _ = 1 + s.a2 := by rw [h2]

/-- The bilinear transform takes the left half plane into the unit circle (40 R139). -/
theorem norm_bilinear_lt_one {fs : ℝ} {s : ℂ} (hfs : 0 < fs) (hs : s.re < 0) : ‖bilinear fs s‖ < 1 := by
  have closer : ‖2 * fs + s‖ ^ 2 < ‖2 * fs - s‖ ^ 2 := by
    simp only [Complex.sq_norm, Complex.normSq_apply, Complex.add_re, Complex.add_im, Complex.sub_re, Complex.sub_im,
      Complex.mul_re, Complex.mul_im, Complex.re_ofNat, Complex.im_ofNat, Complex.ofReal_re, Complex.ofReal_im]
    nlinarith [mul_pos hfs (neg_pos.mpr hs)]
  have lt := lt_of_pow_lt_pow_left₀ 2 (norm_nonneg _) closer
  rw [bilinear, norm_div]
  exact (div_lt_one ((norm_nonneg _).trans_lt lt)).mpr lt

/-! ### Analogue poles -/

/-- The poles of the prototype lie in the left half plane (40 R139). -/
theorem prototypePole_re_neg {k : ℕ} (h1 : 1 ≤ k) (h4 : k ≤ 4) : (prototypePole k).re < 0 := by
  have h1' : (1 : ℝ) ≤ k := by exact_mod_cast h1
  have h4' : (k : ℝ) ≤ 4 := by exact_mod_cast h4
  rw [prototypePole, mul_comm, Complex.exp_ofReal_mul_I_re]
  apply Real.cos_neg_of_pi_div_two_lt_of_lt <;> nlinarith [Real.pi_pos]

theorem prewarp_pos {fs f : ℝ} (h0 : 0 < f) (h1 : f < fs / 2) : 0 < prewarp fs f := by
  have mono := prewarp_strictMonoOn (fs := fs) (by linarith)
  simpa using mono ⟨le_rfl, by linarith⟩ ⟨h0.le, h1⟩ h0

/-- Two complex numbers with a positive real product and a sum left of the imaginary axis lie left of it. -/
theorem re_neg_of_mul_eq_of_add {z w : ℂ} {p : ℝ} (hp : 0 < p) (hprod : z * w = p) (hsum : (z + w).re < 0) :
    z.re < 0 := by
  obtain ⟨hre, him⟩ := Complex.ext_iff.mp hprod
  simp only [Complex.mul_re, Complex.mul_im, Complex.ofReal_re, Complex.ofReal_im] at hre him
  rw [Complex.add_re] at hsum
  have hw : p * w.re = z.re * (w.re ^ 2 + w.im ^ 2) := by linear_combination -w.re * hre - w.im * him
  by_contra hz
  have nonneg : 0 ≤ w.re := nonneg_of_mul_nonneg_right (a := p)
    (by rw [hw]; exact mul_nonneg (not_lt.mp hz) (by positivity)) hp
  linarith

/-- Each root of `s² − p_k·B·s + W0sq` lies in the left half plane, since `p_k·B` does (40 R140). -/
theorem bandPassRoots_re_neg {B w0sq : ℝ} (hB : 0 < B) (hw : 0 < w0sq) {s : ℂ} (hs : s ∈ bandPassRoots B w0sq) :
    s.re < 0 := by
  obtain ⟨k, hk, hs⟩ := List.mem_flatMap.mp hs
  obtain ⟨h1, h4⟩ : 1 ≤ k ∧ k ≤ 4 := by fin_cases hk <;> decide
  have left : (prototypePole k * B).re < 0 := by
    rw [Complex.re_mul_ofReal]
    exact mul_neg_of_neg_of_pos (prototypePole_re_neg h1 h4) hB
  have root : ∀ r : ℂ, r ^ 2 = (prototypePole k * B) ^ 2 - 4 * w0sq → ((prototypePole k * B + r) / 2).re < 0 :=
    fun r hr => re_neg_of_mul_eq_of_add hw (w := (prototypePole k * B - r) / 2) (by linear_combination -hr / 4)
      (by rwa [← add_div, add_add_sub_cancel, add_self_div_two])
  obtain rfl | rfl : _ ∨ _ := by simpa only [List.mem_cons, List.not_mem_nil, or_false] using hs
  · exact root _ (complexSqrt_sq _)
  · rw [sub_eq_add_neg]
    exact root _ (by rw [neg_sq, complexSqrt_sq])

/-! ### Digital poles, and the sections of the banks -/

@[simp] theorem mem_sortPoles {z : ℂ} {zs : List ℂ} : z ∈ sortPoles zs ↔ z ∈ zs := by
  classical exact List.mem_insertionSort _

theorem bandPassPoles_norm_lt_one {fs lo hi : ℝ} (h0 : 0 < lo) (h1 : lo < hi) (h2 : hi < fs / 2) :
    ∀ z ∈ bandPassPoles fs lo hi, ‖z‖ < 1 := by
  intro z hz
  have wlo : 0 < prewarp fs lo := prewarp_pos h0 (h1.trans h2)
  have whi : prewarp fs lo < prewarp fs hi :=
    prewarp_strictMonoOn (by linarith) ⟨h0.le, h1.trans h2⟩ ⟨(h0.trans h1).le, h2⟩ h1
  simp only [bandPassPoles, mem_sortPoles, List.mem_map, List.mem_filter] at hz
  obtain ⟨s, ⟨hs, -⟩, rfl⟩ := hz
  exact norm_bilinear_lt_one (by linarith) (bandPassRoots_re_neg (sub_pos.mpr whi) (mul_pos wlo (wlo.trans whi)) hs)

theorem lowPassPoles_norm_lt_one {fs flp : ℝ} (h0 : 0 < flp) (h1 : flp < fs / 2) :
    ∀ z ∈ lowPassPoles fs flp, ‖z‖ < 1 := by
  intro z hz
  simp only [lowPassPoles, mem_sortPoles, List.mem_map] at hz
  obtain ⟨k, hk, rfl⟩ := hz
  obtain ⟨hk1, hk4⟩ : 1 ≤ k ∧ k ≤ 4 := by fin_cases hk <;> decide
  refine norm_bilinear_lt_one (by linarith) ?_
  rw [Complex.re_ofReal_mul]
  exact mul_neg_of_pos_of_neg (prewarp_pos h0 h1) (prototypePole_re_neg hk1 hk4)

/-- The sections of the band-pass are those of its poles (40 R140). -/
theorem mem_refBandPass {fs lo hi : ℝ} {c : Bank ℝ 4} (h : refBandPass fs lo hi = some c) :
    ∀ s ∈ c.toList, ∃ z ∈ bandPassPoles fs lo hi, s = bandPassSection (bandCentre fs lo hi) z := by
  unfold refBandPass at h
  split at h
  · split at h
    · next z0 z1 z2 z3 poles =>
      cases h
      simp [poles]
    · cases h
  · cases h

/-- The sections of the low-pass are those of its poles (40 R141). -/
theorem mem_refLowPass {fs flp : ℝ} {c : Bank ℝ 2} (h : refLowPass fs flp = some c) :
    ∀ s ∈ c.toList, ∃ z ∈ lowPassPoles fs flp, s = lowPassSection z := by
  unfold refLowPass at h
  split at h
  · next z0 z1 poles =>
    cases h
    simp [poles]
  · cases h

/-! ### The notch -/

/-- The notch's numerator vanishes on the unit circle at the angle of its frequency (SP5, 40 R142). -/
theorem notch_numerator_at (g θ : ℝ) :
    (g : ℂ) * Complex.exp (Complex.I * θ) ^ 2 + (-2 * g * Real.cos θ : ℝ) * Complex.exp (Complex.I * θ) + g = 0 := by
  have inverse : Complex.exp (θ * Complex.I) * Complex.exp (-θ * Complex.I) = 1 := by
    rw [← Complex.exp_add, neg_mul, add_neg_cancel, Complex.exp_zero]
  push_cast
  rw [mul_comm Complex.I, Complex.cos]
  linear_combination -(g : ℂ) * inverse

/-- A section of the notch's shape is stable when its gain is between 0 and 1 and its angle is not a multiple of π. -/
theorem stableSection_of_gain {s : Biquad ℝ} {g c : ℝ} (g0 : 0 < g) (g1 : g < 1) (hc : |c| < 1)
    (h1 : s.a1 = -2 * g * c) (h2 : s.a2 = 2 * g - 1) : StableSection s := by
  refine ⟨by rw [h2, abs_lt]; constructor <;> linarith, ?_⟩
  calc |s.a1| = 2 * g * |c| := by rw [h1, abs_mul, abs_mul, abs_of_pos g0]; norm_num
    _ < 2 * g * 1 := by gcongr
    _ = 1 + s.a2 := by rw [h2]; ring

/-- Below `Q·FS/2` the notch's `beta` is positive, so that its gain `1 / (1 + beta)` is between 0 and 1 (40 R142). -/
theorem notchSection_stable {fs qn f0 : ℝ} (hq : 0 < qn) (h0 : 0 < f0) (h1 : f0 < fs / 2)
    (h : f0 < qn * (fs / 2)) : StableSection (notchSection fs qn f0) := by
  have hfs : 0 < fs := by linarith
  have w0_pos : 0 < 2 * Real.pi * f0 / fs := by positivity
  have w0_lt : 2 * Real.pi * f0 / fs < Real.pi := by
    rw [div_lt_iff₀ hfs]; nlinarith [Real.pi_pos]
  have cos_lt : |Real.cos (2 * Real.pi * f0 / fs)| < 1 := by
    rw [← sq_lt_one_iff_abs_lt_one]
    nlinarith [Real.sin_sq_add_cos_sq (2 * Real.pi * f0 / fs), Real.sin_pos_of_pos_of_lt_pi w0_pos w0_lt]
  have beta : 0 < Real.tan (2 * Real.pi * f0 / fs / (2 * qn)) := by
    refine Real.tan_pos_of_pos_of_lt_pi_div_two (by positivity) ?_
    rw [div_div, div_lt_iff₀ (by positivity)]
    nlinarith [Real.pi_pos]
  exact stableSection_of_gain (by positivity) ((div_lt_one (by linarith)).mpr (by linarith)) cos_lt rfl rfl

/-- Settles O54: the bank is there by SP7, and the poles of its sections are images of left-half-plane roots. -/
theorem referenceBandPassIsStableWithZerosAtTheEnds : Obligations.ReferenceBandPassIsStableWithZerosAtTheEnds := by
  intro fs lo hi h0 h1 h2
  obtain ⟨c, hc⟩ := Option.isSome_iff_exists.mp (refBandPass_isSome h0 h1 h2)
  refine ⟨c, hc, fun s hs => ?_⟩
  obtain ⟨z, hz, rfl⟩ := mem_refBandPass hc s hs
  exact ⟨rfl, rfl, stableSection_of_pole (bandPassPoles_norm_lt_one h0 h1 h2 z hz) rfl rfl⟩

/-- Settles O55: the low-pass by its poles, the notch by its one section. -/
theorem referenceLowPassAndNotchShape : Obligations.ReferenceLowPassAndNotchShape := by
  constructor
  · intro fs flp h0 h1
    obtain ⟨c, hc⟩ := Option.isSome_iff_exists.mp (refLowPass_isSome fs flp)
    refine ⟨c, hc, fun s hs => ?_⟩
    obtain ⟨z, hz, rfl⟩ := mem_refLowPass hc s hs
    exact ⟨rfl, rfl, mul_div_cancel₀ _ four_ne_zero,
      stableSection_of_pole (lowPassPoles_norm_lt_one h0 h1 z hz) rfl rfl⟩
  · intro fs qn f0 hq h0 h1
    refine ⟨_, if_pos ⟨h0, h1⟩, fun s hs => ?_⟩
    obtain rfl : s = notchSection fs qn f0 := by simpa using hs
    refine ⟨rfl, rfl, rfl, rfl, ?_, ?_, ?_, notchSection_stable hq h0 h1⟩
    · simp only [notchSection]; ring
    · simp only [notchSection]; ring
    · rintro z rfl
      exact notch_numerator_at _ _

end Sys2Proof.Machine
end

section
/-! Filter application (spec 41 R160 to R163): one section after another is one sample after another, and bypassed stages
at unit volume leave a frame's values as they are. -/

namespace Sys2Proof.Machine

section FilterApply

variable {F : Type}

/-! ### The cascade sample by sample -/

theorem cascadeBySample_nil (M : Num F) (v : List F) : cascadeBySample M [] v = v := by
  induction v with
  | nil => rfl
  | cons x xs ih => exact congrArg (x :: ·) ih

/-- The first section may run over the whole frame before the others see a sample (41 R161). -/
theorem cascadeBySample_cons (M : Num F) (sec : Biquad F) (s1 s2 : F) (rest : List (Biquad F × F × F)) (v : List F) :
    cascadeBySample M ((sec, s1, s2) :: rest) v = cascadeBySample M rest (biquadFrom M sec s1 s2 v) := by
  induction v generalizing s1 s2 rest with
  | nil => rfl
  | cons x xs ih => simp only [cascadeBySample, cascadeStep, biquadFrom, ih]

/-! ### PASSTHROUGH with its stages bypassed -/

/-- At volume ONE a bypassed PASSTHROUGH only takes each pattern into the arithmetic and back (41 R163, 42 R188, R192). -/
theorem framePatterns_bypassed {C : Cfg F} {Z : F → Prop} (hM : C.num.Lawful Z) {snap : Tuning} {banks : Banks F}
    (hvol : C.num.ofB32 snap.volume = C.one) (hbpf : banks.bpf = none) (hnotch : banks.notch = none) (p : List Word) :
    framePatterns C .passthrough snap banks p = p.map fun w => C.num.toB32 (C.num.ofB32 w) := by
  have unit : ∀ x, C.num.mul C.one x = x := hM.np3_left
  simp [framePatterns, demodulate, demodPt, zeroPhase, scaleVolume, hvol, hbpf, hnotch, unit]

/-- Finite patterns stay finite on the way into the arithmetic and back (00 R11 NP6). -/
theorem allFinite_roundtrip {M : Num F} {Z : F → Prop} (hM : M.Lawful Z) {p : List Word} (hp : allFinite p = true) :
    allFinite (p.map fun w => M.toB32 (M.ofB32 w)) = true := by
  rw [allFinite, List.all_eq_true] at *
  exact List.forall_mem_map.mpr fun w hw => (hM.np6_val w (hp w hw)).1

/-- With FilterSpec current and both checks passed, a frame step emits the patterns its own banks give. -/
theorem frameStep_of_current (C : Cfg F) (m : DemodMode) (t : FrameTick) {b : Block F}
    (hcur : specIsCurrent (tagOf b.tuning) b) (hp : allFinite (paddedFrame C.n t) = true)
    (ho : allFinite (framePatterns C m b.tuning b.spec.banks (paddedFrame C.n t)) = true) :
    frameStep C m t b =
      emit (framePatterns C m b.tuning b.spec.banks (paddedFrame C.n t)) (noteUnderrun C t b) := by
  have kept := synth_of_current C _ _ ((specIsCurrent_noteUnderrun C _ t b).mpr hcur)
  simp [frameStep, kept, hp, ho]

end FilterApply

/-- Settles O50: section by section, by the sections with their delay elements at ZERO. -/
theorem cascadeOrderDoesNotMatter : Obligations.CascadeOrderDoesNotMatter := by
  intro F M k bank v
  unfold cascade
  induction bank.toList generalizing v with
  | nil => exact (cascadeBySample_nil M v).symm
  | cons sec secs ih => exact (ih _).trans (cascadeBySample_cons M sec _ _ _ v).symm

/-- Settles O45: each emitted pattern is an input pattern taken into the arithmetic and back, which NP6 describes. -/
theorem bypassedPassThroughAtUnitVolumeIsIdentity : Obligations.BypassedPassThroughAtUnitVolumeIsIdentity := by
  intro F C t b hC hone hp hvalid htag hbpf hnotch hvol
  obtain ⟨Z, hM⟩ := hC.num_lawful
  have patterns := framePatterns_bypassed hM (snap := b.tuning) (hvol ▸ hone) hbpf hnotch (paddedFrame C.n t)
  have emitted := frameStep_of_current C .passthrough t ⟨hvalid, htag⟩ hp (patterns ▸ allFinite_roundtrip hM hp)
  rw [patterns] at emitted
  rw [emitted]
  refine ⟨by simp, by simp, fun i w hw => ?_⟩
  have hfin : finite w = true := List.all_eq_true.mp hp w (List.mem_of_getElem? hw)
  exact ⟨_, by simp [hw], (hM.np6_val w hfin).2, hM.np6_exact w hfin⟩

end Sys2Proof.Machine
end

section
/-! The demodulator's frames (spec 42 R190 to R195, 43 R210 to R218): what a frame step answers past its input check,
and which tuning fields the frame that it emits can depend on. -/

namespace Sys2Proof.Machine

section Demodulator

variable {F : Type} (C : Cfg F)

/-! ### The events of a frame step -/

/-- A tick is short when it carries fewer than N samples, and then the underrun is counted (43 R213, 60 R286). -/
theorem noteUnderrun_eq_ite (t : FrameTick) (b : Block F) :
    noteUnderrun C t b =
      if t.kIn < C.n then { b with underrun := true, underrunCount := b.underrunCount + 1 } else b := by
  simp [noteUnderrun, isShort, raiseEvent]

/-- CHECKOUT emits the result patterns, or silence with the output fault recorded (43 R216 to R218). -/
theorem checkOut_eq (n : Nat) (o : List Word) (b : Block F) :
    (if allFinite o then emit o b else failFrame n .outputNonfinite b) =
      (if allFinite o then { b with frameCount := b.frameCount + 1 }
        else { b with fault := true, faultCause := 2#4, faultCount := b.faultCount + 1,
                      frameCount := b.frameCount + 1 },
       if allFinite o then o else List.replicate n 0#32) := by
  split <;> rfl

/-! ### The tuning fields that a frame depends on -/

variable {C} {b b' : Block F}

/-- The patterns of a frame with the banks synthesized from its own snapshot. -/
def snapshotPatterns (C : Cfg F) (m : DemodMode) (x : Tuning) (p : List Word) : List Word :=
  framePatterns C m x (synthesize C (tagOf x)).1 p

/-- Two blocks that meet the invariant emit the same frame when their snapshots give the same patterns. -/
theorem BlockInv.frame_congr (h : BlockInv C b) (h' : BlockInv C b') {m : DemodMode} {t : FrameTick}
    (patterns : snapshotPatterns C m b.tuning (paddedFrame C.n t) =
      snapshotPatterns C m b'.tuning (paddedFrame C.n t)) :
    (Machine.frameStep C m t b).2 = (Machine.frameStep C m t b').2 := by
  obtain ⟨-, frame, -⟩ := frameUsesTheBanksOfItsSnapshot F C m t b h
  obtain ⟨-, frame', -⟩ := frameUsesTheBanksOfItsSnapshot F C m t b' h'
  unfold snapshotPatterns at patterns
  rw [frame, frame', patterns]

section Fields

variable {x y : Tuning} (center : x.center = y.center) (bandwidth : x.bandwidth = y.bandwidth)
  (notch : x.notch = y.notch) (volume : x.volume = y.volume) (p : List Word)

/-- The low-pass bank is the same for every snapshot (40 R134). -/
theorem synthesize_lpf (tag tag' : Tag) : (synthesize C tag).1.lpf = (synthesize C tag').1.lpf := rfl

include center bandwidth in
/-- The band-pass bank depends on the centre frequency and the bandwidth (40 R131, R132). -/
theorem synthesize_bpf_congr : (synthesize C (tagOf x)).1.bpf = (synthesize C (tagOf y)).1.bpf := by
  simp only [synthesize, tagOf, center, bandwidth]

include notch in
/-- The notch bank depends on the notch frequency (40 R133). -/
theorem synthesize_notch_congr : (synthesize C (tagOf x)).1.notch = (synthesize C (tagOf y)).1.notch := by
  simp only [synthesize, tagOf, notch]

include center volume in
/-- AM filters with the low-pass alone, and reads the centre frequency for its carrier (42 R190). -/
theorem snapshotPatterns_am_congr : snapshotPatterns C .am x p = snapshotPatterns C .am y p := by
  simp only [snapshotPatterns, framePatterns, demodulate, demodAm, synthesize_lpf (tagOf x) (tagOf y), center, volume]

include center bandwidth volume in
/-- FM filters with the band-pass and the low-pass (42 R191). -/
theorem snapshotPatterns_fm_congr : snapshotPatterns C .fm x p = snapshotPatterns C .fm y p := by
  simp only [snapshotPatterns, framePatterns, demodulate, demodFm, synthesize_lpf (tagOf x) (tagOf y),
    synthesize_bpf_congr center bandwidth, volume]

include center bandwidth notch volume in
/-- PASSTHROUGH filters with the band-pass and the notch (42 R192). -/
theorem snapshotPatterns_passthrough_congr :
    snapshotPatterns C .passthrough x p = snapshotPatterns C .passthrough y p := by
  simp only [snapshotPatterns, framePatterns, demodulate, demodPt, synthesize_bpf_congr center bandwidth,
    synthesize_notch_congr notch, volume]

end Fields

end Demodulator

/-- Settles O53: under the invariant the frame is a function of the snapshot, in which each mode reads its own
fields. -/
theorem outputDependsOnlyOnTheModesFields : Obligations.OutputDependsOnlyOnTheModesFields := by
  intro F C t b b' hb hb' center volume
  refine ⟨hb.frame_congr hb' (snapshotPatterns_am_congr center volume _), fun bandwidth => ⟨?_, fun notch => ?_⟩⟩
  · exact hb.frame_congr hb' (snapshotPatterns_fm_congr center bandwidth volume _)
  · exact hb.frame_congr hb' (snapshotPatterns_passthrough_congr center bandwidth notch volume _)

/-- On finite input a frame operation counts the underrun, synthesizes from its snapshot, and ends in CHECKOUT of the
patterns that its mode's sequence gives (43 R210). -/
theorem exec_frameOf_of_finite (m : DemodMode) (t : FrameTick) (s : State)
    (hp : allFinite (paddedFrame Config.cfg.n t) = true) :
    let b2 := synth Config.cfg (tagOf s.block.tuning)
      (if t.kIn < Config.cfg.n then
        { s.block with underrun := true, underrunCount := s.block.underrunCount + 1 } else s.block)
    let o := framePatterns Config.cfg m s.block.tuning b2.spec.banks (paddedFrame Config.cfg.n t)
    exec (frameOf m t) s = .next { s with
      block := if allFinite o then { b2 with frameCount := b2.frameCount + 1 }
        else { b2 with fault := true, faultCause := 2#4, faultCount := b2.faultCount + 1,
                       frameCount := b2.frameCount + 1 }
      outPort := some (if allFinite o then o else List.replicate Config.cfg.n 0#32) } := by
  simp only [exec_frameOf, present, frameStep, hp, if_true, noteUnderrun_eq_ite, checkOut_eq]

/-- Settles O26: the patterns of the AM mode are its sequence. -/
theorem amFrameCompletes : Obligations.AmFrameCompletes := exec_frameOf_of_finite .am

/-- Settles O27: the patterns of the FM mode are its sequence. -/
theorem fmFrameCompletes : Obligations.FmFrameCompletes := exec_frameOf_of_finite .fm

/-- Settles O28: the patterns of the PASSTHROUGH mode are its sequence. -/
theorem ptFrameCompletes : Obligations.PtFrameCompletes := exec_frameOf_of_finite .passthrough

end Sys2Proof.Machine
end

section
/-! The frame cycle (spec 43 R210 to R219; 60 R286, R291, R294): what every end of a frame step presents and counts,
the two fault ends whole, and that no pending event stops a block that meets the invariant. -/

namespace Sys2Proof.Machine

section FrameCycle

variable {F : Type} (C : Cfg F)

/-! ### What every end of a frame step counts -/

/-- The minimum in `isShort` adds nothing: a tick is short when it carries fewer than N samples (43 R213). -/
theorem isShort_eq_decide (n : Nat) (t : FrameTick) : isShort n t = decide (t.kIn < n) := by
  simp [isShort]

/-- On each of its three ends a frame step counts one frame, and the underrun that its padding noted (43 R213, R218). -/
theorem frameStep_counts (m : DemodMode) (t : FrameTick) (b : Block F) :
    (frameStep C m t b).1.frameCount = b.frameCount + 1 ∧
      (frameStep C m t b).1.underrun = (b.underrun || isShort C.n t) ∧
      (frameStep C m t b).1.underrunCount = b.underrunCount + (if isShort C.n t then 1#32 else 0#32) := by
  obtain ⟨-, inputFault⟩ | ⟨-, o, -, ⟨-, outputFault⟩ | ⟨-, completed⟩⟩ := frameStep_cases C m t b
  · simp [inputFault]
  · simp [outputFault]
  · simp [completed]

/-! ### The two fault ends -/

/-- A frame step that fails CHECKIN is the containment of its input fault (43 R215). -/
theorem frameStep_of_inputNonfinite (m : DemodMode) (t : FrameTick) (b : Block F)
    (hp : allFinite (paddedFrame C.n t) = false) :
    frameStep C m t b = failFrame C.n .inputNonfinite (noteUnderrun C t b) := by
  simp [frameStep, hp]

/-- A frame step that fails CHECKOUT is the containment of its output fault, after SYNTH (43 R216). -/
theorem frameStep_of_outputNonfinite (m : DemodMode) (t : FrameTick) (b : Block F)
    (hp : allFinite (paddedFrame C.n t) = true)
    (ho : allFinite (framePatterns C m b.tuning (synth C (tagOf b.tuning) (noteUnderrun C t b)).spec.banks
      (paddedFrame C.n t)) = false) :
    frameStep C m t b = failFrame C.n .outputNonfinite (synth C (tagOf b.tuning) (noteUnderrun C t b)) := by
  simp [frameStep, hp, ho]

end FrameCycle

/-! ### No event stops the block -/

/-- The low two bits of a legal DEMOD_MODE are not the reserved code. -/
theorem selector_ne_reserved {x : Tuning} (h : legalTuning 5 x.demod = true) (run : Bool) :
    selector run x ≠ 7#3 := by
  have hmode : x.demod.toNat < 3 := of_decide_eq_true h
  have hlow : x.demod.extractLsb' 0 2 ≠ 3#2 := by
    simp only [ne_eq, ← BitVec.toNat_inj, BitVec.extractLsb'_toNat, BitVec.toNat_ofNat, Nat.shiftRight_zero]
    omega
  unfold selector
  generalize x.demod.extractLsb' 0 2 = mode at hlow
  revert run mode; decide

/-- Under the invariant every frame tick decodes: RUN implies a legal DEMOD_MODE (10 R31, R33; 43 R219). -/
theorem BlockInv.decodes_tick {F : Type} {C : Cfg F} {b : Block F} (h : BlockInv C b) (t : FrameTick) :
    ∃ i, decodeFrame (selector b.run b.tuning) t = .ok i := by
  cases hrun : b.run
  case false => exact ⟨_, decodeFrame_of_idle _ t (selector_getLsbD_two ..)⟩
  case true =>
    obtain ⟨m, hm⟩ | ⟨reserved, -⟩ := decodeFrame_of_run (selector true b.tuning) t (selector_getLsbD_two ..)
    · exact ⟨_, hm⟩
    · exact absurd reserved (selector_ne_reserved (h.legal_of_run hrun 5) true)

/-- A request that decodes is answered, every instruction being (60 R294). -/
theorem runRequest_answers_next {r : Request} {i : Instr} (h : decode r = .ok i) (s : State) :
    ∃ t, runRequest r s = .next t := by
  rw [runRequest_of_decode h]
  exact exec_answers_next i s

theorem StateInv.runEvent_answers_next {s : State} (h : StateInv s) (e : Event) : ∃ t, runEvent e s = .next t := by
  cases e with
  | bus tw => exact runRequest_answers_next (r := .host tw) rfl s
  | tick t =>
    obtain ⟨i, hi⟩ := h.block.decodes_tick t
    exact runRequest_answers_next (r := tickRequest s t) hi s
  | hwReset _ => exact ⟨_, rfl⟩

/-! ### The obligations -/

/-- Settles O31: the frame is N finite patterns on each end of a frame step, and each end counts it. -/
theorem everyFrameStepEmitsNFinitePatterns : Obligations.EveryFrameStepEmitsNFinitePatterns := by
  intro m t s
  obtain ⟨length, finite⟩ := frameStep_emits_finite Config.cfg m t s.block
  obtain ⟨frames, -, -⟩ := frameStep_counts Config.cfg m t s.block
  exact ⟨_, _, exec_frameOf m t s, rfl, length, finite, frames⟩

/-- Settles O32: every end of a frame step keeps what LOADPAD noted of the tick. -/
theorem underrunCountedExactlyWhenShort : Obligations.UnderrunCountedExactlyWhenShort := by
  intro m t s
  obtain ⟨-, flag, count⟩ := frameStep_counts Config.cfg m t s.block
  rw [isShort_eq_decide] at flag count
  refine ⟨_, exec_frameOf m t s, fun few => ?_, fun enough => ?_⟩
  · simp [flag, count, few]
  · simp [flag, count, enough.not_gt]

/-- Settles O60: with nothing pending the state stays, and a pending event is answered from the cleared ports. -/
theorem invariantStatesNeverStop : Obligations.InvariantStatesNeverStop := by
  intro s hs
  cases pending : s.inputs with
  | nil => exact ⟨s, step_of_nothing_pending pending⟩
  | cons e rest =>
    rw [step_of_pending pending]
    exact (hs.beginTransition rest).runEvent_answers_next e

/-- Settles O25: the idle tick's meaning, and the selector without its RUN bit. -/
theorem idleFrameDoesNothing : Obligations.IdleFrameDoesNothing :=
  fun t _ => ⟨rfl, fun idle => decodeFrame_of_idle _ t (by rw [selector_getLsbD_two, idle])⟩

/-- Settles O29: CHECKIN fails after the underrun is noted and before anything else is done. -/
theorem inputFaultGivesSilence : Obligations.InputFaultGivesSilence := by
  intro m t s hp
  rw [exec_frameOf, frameStep_of_inputNonfinite _ m t s.block hp, noteUnderrun_eq_ite]
  rfl

/-- Settles O30: CHECKOUT fails on the block that SYNTH left. -/
theorem outputFaultGivesSilence : Obligations.OutputFaultGivesSilence :=
  fun _ C => frameStep_of_outputNonfinite C

end Sys2Proof.Machine
end

section
/-! The control surface (spec 44 R240 to R253; 70 R320): the setters' tests on patterns as domains of values, what a
setter, a command, a status clear and a refused write leave behind, and reset. -/

namespace Sys2Proof.Machine

/-! ### The values of patterns -/

theorem isZero_iff_val (w : Word) : isZero w = true ↔ val w = 0 := by
  rw [isZero_iff, val_eq_zero_iff]

/-- A value is negative exactly where the sign is set on a pattern that is no zero. -/
theorem val_nonneg_iff (w : Word) : 0 ≤ val w ↔ w.msb = false ∨ isZero w = true := by
  rw [← not_lt, val_neg_iff, isZero_iff_val, not_and_or, not_ne_iff, Bool.not_eq_true]

/-- On patterns without sign the unsigned order is the order of values (44 R240). -/
theorem val_le_val_iff {u w : Word} (hu : u.msb = false) (hw : w.msb = false) : val u ≤ val w ↔ u ≤ w := by
  have unsigned {v : Word} (hv : v.msb = false) : wordBits v = v.toNat :=
    Nat.mod_eq_of_lt (BitVec.toNat_lt_of_msb_false hv)
  have value {v : Word} (hv : v.msb = false) : val v = (magnitude 23 v.toNat : ℚ) / 2 ^ 149 := by
    rw [val, hv, magUnits_eq, unsigned hv, if_neg Bool.false_ne_true, one_mul]
  rw [value hu, value hw, div_le_div_iff_of_pos_right (by positivity), Nat.cast_le,
    (magnitude_strictMono 23).le_iff_le, BitVec.le_def]

theorem val_one : val 0x3F800000#32 = 1 := by decide +kernel

theorem nonneg_iff (w : Word) : nonneg w = true ↔ finite w = true ∧ 0 ≤ val w := by
  rw [val_nonneg_iff]; simp [nonneg]

theorem pos_iff (w : Word) : pos w = true ↔ finite w = true ∧ 0 < val w := by
  rw [lt_iff_le_and_ne, val_nonneg_iff, ne_comm, Ne, ← isZero_iff_val, pos]
  cases isZero w <;> simp

theorem unitRange_iff (w : Word) : unitRange w = true ↔ finite w = true ∧ 0 ≤ val w ∧ val w ≤ 1 := by
  rw [unitRange, Bool.and_eq_true, nonneg_iff, and_assoc]
  refine and_congr_right fun _ => and_congr_right fun sign => ?_
  rw [Bool.or_eq_true, decide_eq_true_iff]
  by_cases zero : isZero w = true
  · simp [zero, (isZero_iff_val w).mp zero]
  · have unsigned : w.msb = false := ((val_nonneg_iff w).mp sign).resolve_right zero
    rw [← val_one, val_le_val_iff unsigned (by decide), BitVec.le_def]
    exact or_iff_right zero

/-! ### The setters -/

/-- The first byte of a setter's word is the write bit and the address of its register (30 R104). -/
theorem decodeHost_setter (i : Fin 6) (d : Word) :
    decodeHost ((0x90#8 + BitVec.ofNat 8 i.val) ++ d) = setterOf i d := by
  have byte : 0x90#8 + BitVec.ofNat 8 i.val = BitVec.ofBool true ++ tuningAddr i := by
    revert i; decide
  rw [byte]
  refine (decodeHost_write (tuningAddr i) d).trans ?_
  fin_cases i <;> rfl

/-- A setter refuses a word outside its register's domain (44 R247). -/
theorem exec_setterOf_of_illegal {i : Fin 6} {d : Word} (h : legalTuning i d = false) (s : State) :
    exec (setterOf i d) s = .next { s with block := { s.block with
      cfgErr := true, cfgCause := if i.val < 4 then 1#4 else 2#4 } } := by
  rw [exec_setterOf, onBlock, setTuning_of_illegal i _ d _ h, raiseEvent, apply_ite configCode]
  rfl

/-- A setter stores a legal word and refuses any other (44 R241 to R247). -/
theorem exec_setterOf_eq_ite (i : Fin 6) (d : Word) (s : State) :
    exec (setterOf i d) s = .next (if legalTuning i d then
      { s with block := { s.block with
          tuning := writeTuning s.block.tuning i d, valid := s.block.valid ||| validBit i } }
      else { s with block := { s.block with
          cfgErr := true, cfgCause := if i.val < 4 then 1#4 else 2#4 } }) := by
  cases h : legalTuning i d
  case false => exact exec_setterOf_of_illegal h s
  case true => rw [exec_setterOf, onBlock, setTuning_of_legal i _ d _ h, if_pos rfl]

/-! ### The status clear -/

section StatusClear

variable {F : Type} (m : Word) (b : Block F)

/-- A status clear leaves every bit of STATUS but the four sticky ones. -/
theorem statusWord_clearSticky_other {i : Nat} (h : i < 4 ∨ 8 ≤ i) :
    (statusWord (clearSticky m b)).getLsbD i = (statusWord b).getLsbD i := by
  obtain low | high := h
  all_goals
    simp (disch := omega) only [statusWord, BitVec.getLsbD_append, if_pos, if_neg]
    rfl

/-- A status clear takes from the sticky bits of STATUS those that the mask names. -/
theorem statusWord_clearSticky_sticky {i : Nat} (h : 4 ≤ i) (h' : i < 8) :
    (statusWord (clearSticky m b)).getLsbD i = ((statusWord b).getLsbD i && !m.getLsbD i) := by
  obtain ⟨-, -, -, -, cfgErr, synErr, underrun, fault, -⟩ := statusWord_flags b
  obtain ⟨-, -, -, -, cfgErr', synErr', underrun', fault', -⟩ := statusWord_flags (clearSticky m b)
  obtain rfl | rfl | rfl | rfl : i = 4 ∨ i = 5 ∨ i = 6 ∨ i = 7 := by omega
  · rw [cfgErr, cfgErr', clearSticky_cfgErr]
  · rw [synErr, synErr', clearSticky_synErr]
  · rw [underrun, underrun', clearSticky_underrun]
  · rw [fault, fault', clearSticky_fault]

/-- The mask 0xF0 has ones at the four sticky bits of STATUS alone (10 R41). -/
theorem getLsbD_stickyMask : ∀ i < 32, (0xF0#32).getLsbD i = decide (4 ≤ i ∧ i < 8) := by decide

theorem statusWord_clearSticky :
    statusWord (clearSticky m b) = statusWord b &&& ~~~(m &&& 0xF0#32) := by
  refine BitVec.eq_of_getLsbD_eq fun i hi => ?_
  rw [BitVec.getLsbD_and, BitVec.getLsbD_not, BitVec.getLsbD_and, getLsbD_stickyMask i hi]
  by_cases sticky : 4 ≤ i ∧ i < 8
  · rw [statusWord_clearSticky_sticky m b sticky.1 sticky.2]
    simp [sticky, hi]
  · rw [statusWord_clearSticky_other m b (by omega)]
    simp [sticky, hi]

end StatusClear

/-! ### The run gate and the refused write -/

/-- CMD.START sets RUN with all six valid bits, and is refused without (44 R249). -/
theorem startRun_eq_ite {F : Type} (b : Block F) :
    startRun b = if b.valid = 0b111111#6 then { b with run := true }
      else { b with cfgErr := true, cfgCause := 4#4 } := by
  split
  case isTrue h => exact startRun_of_tuned b ((tuned_iff _).mpr h)
  case isFalse h => exact startRun_of_untuned b (Bool.eq_false_iff.mpr (mt (tuned_iff _).mp h))

/-- An address outside the writable ones (44 R253). -/
theorem isWritable_eq_false {a : Addr} (cmd : a ≠ 0x08#7) (status : a ≠ 0x09#7)
    (setter : ¬ (0x10#7 ≤ a ∧ a ≤ 0x15#7)) : isWritable a = false := by
  revert a; decide

/-! ### The obligations -/

/-- Settles O14: a value is the sign and a magnitude that grows strictly with the pattern, and 1.0 bounds the unit
range. -/
theorem legalityTestsAreValueDomains : Obligations.LegalityTestsAreValueDomains :=
  ⟨pos_iff, nonneg_iff, unitRange_iff, fun _ _ _ _ hu hw => (val_le_val_iff hu hw).symm⟩

/-- Settles O18: by the bits of STATUS, and what a word other than STATUS can depend on. -/
theorem statusClearActsOnNamedBits : Obligations.StatusClearActsOnNamedBits := fun m s =>
  ⟨onBlock (clearSticky m) s, rfl, rfl, statusWord_clearSticky m s.block, fun _ ha => readReg_clearSticky _ m ha⟩

/-- Settles O9: the reset input runs as the oldest pending event. -/
theorem hardwareResetEqualsCommandReset : Obligations.HardwareResetEqualsCommandReset :=
  ⟨fun _ _ _ h => step_of_pending h, fun _ => rfl⟩

/-- Settles O11: the setters' rule at the registers x[0] to x[3]. -/
theorem floatSettersStoreOrRefuse : Obligations.FloatSettersStoreOrRefuse := fun s d =>
  ⟨decodeHost_setter 0 d, decodeHost_setter 1 d, decodeHost_setter 2 d, decodeHost_setter 3 d,
    exec_setterOf_eq_ite 0 d s, exec_setterOf_eq_ite 1 d s, exec_setterOf_eq_ite 2 d s, exec_setterOf_eq_ite 3 d s⟩

/-- Settles O12: the setters' rule at x[4] and x[5], whose legal codes are those below a bound. -/
theorem enumSettersStoreOrRefuse : Obligations.EnumSettersStoreOrRefuse := by
  refine fun s d => ⟨decodeHost_setter 4 d, decodeHost_setter 5 d, ?_, ?_⟩
  · exact (exec_setterOf_eq_ite 4 d s).trans (congrArg _ (if_congr decide_eq_true_iff rfl rfl))
  · exact (exec_setterOf_eq_ite 5 d s).trans (congrArg _ (if_congr decide_eq_true_iff rfl rfl))

/-- Settles O13: an illegal word only raises the configuration error. -/
theorem refusedSetterKeepsRegisterAndValid : Obligations.RefusedSetterKeepsRegisterAndValid :=
  fun _ _ s h => exec_setterOf_of_illegal h s

/-- Settles O16: the words are computed; START splits on the valid bits, and every other command has one effect. -/
theorem commandEffects : Obligations.CommandEffects := by
  refine ⟨by decide, by decide, by decide, fun s => ⟨rfl, ?_, rfl, rfl, fun _ => rfl⟩⟩
  calc exec .cmdStart s = .next (onBlock startRun s) := rfl
    _ = _ := by rw [onBlock, startRun_eq_ite]; split <;> rfl

/-- Settles O19: no other address is writable, and a refused write only raises the configuration error. -/
theorem refusedWriteOnlyReports : Obligations.RefusedWriteOnlyReports := by
  refine ⟨fun a d cmd status setter => ?_, fun _ _ _ => rfl⟩
  rw [decodeHost_write, decodeWrite_of_refused d (isWritable_eq_false cmd status setter)]

end Sys2Proof.Machine
end

section
/-!
Exceptions: what an event records (60 R280 to R287).
-/
namespace Sys2Proof.Machine

/-- Settles O24: a synthesis error and an underrun write the fields as they stand; a configuration error and a frame
fault write a code, which is compared cause by cause. -/
theorem raisedEventsRecordExactlyTheirFields : Obligations.RaisedEventsRecordExactlyTheirFields := by
  refine fun F b => ⟨fun cause => ?configError, fun _ => rfl, rfl, fun cause => ?frameFault⟩
  case configError => cases cause <;> rfl
  case frameFault => cases cause <;> rfl

end Sys2Proof.Machine
end
